-- ==== Sys2Proof/Config.lean ====
section
/-! DEFINITION. What the spec leaves as a parameter of an implementation (rule R6).

The only open parameter is `NUM_UNITS`. Every answer that SRC and SNK are free to give is data of
the machine's state (Machine/State.lean), so no value is left to an uninterpreted constant here. -/

namespace Sys2Proof.Config

/-- The default of the open parameter `NUM_UNITS` (R6, R123, I16). -/
def defaultUnits : Nat := 1

/-- The values `NUM_UNITS` may take: at least one unit (R6, R123). -/
def unitsAllowed (n : Nat) : Bool := 1 ≤ n

end Sys2Proof.Config
end

