-- ==== Sys2Proof/Word.lean ====
section
/-! DEFINITION. The words of the unit (rule R6): what the spec treats as bits, bit 0 of weight 1 (R7). -/

namespace Sys2Proof

/-- A stream unit, a key, a value of OBUF: `DATA_W` = `KEY_W` = 8 (R6). -/
abbrev Byte := BitVec 8

/-- A command word: `CMD_W` = 32 (R6, R50). -/
abbrev CmdWord := BitVec 32

/-- A response word: `RSP_W` = 64 (R6, R59). -/
abbrev RspWord := BitVec 64

/-- A value of COUNT: `COUNT_W` = 48, wrapping (R6, R20). -/
abbrev Count := BitVec 48

end Sys2Proof
end

