-- ==== Sys2Proof/Syntax.lean ====
section
/-! DEFINITION. The four commands (R52, `opcode_table.json`), and the assembler's statements (R62, R63). -/

namespace Sys2Proof

/-- The commands of the opcode table. KEY and DATA are 8-bit fields of the word, so every value of an
operand is a legal one (R53, R54); a stream command names no stream (R55). -/
inductive Instr where
  /-- ENCB: encrypt one byte (R76). -/
  | encb (data key : Byte)
  /-- DECB: decrypt one byte (R77). -/
  | decb (data key : Byte)
  /-- ENCS: encrypt the connected stream (R90). -/
  | encs (key : Byte)
  /-- DECS: decrypt the connected stream (R91). -/
  | decs (key : Byte)
deriving DecidableEq, Repr

/-- One assembler statement (R62, R63). Operands are the literals as written, not yet checked. -/
inductive Source where
  | encb (data key : Nat)
  | decb (data key : Nat)
  | encs (key : Nat)
  | decs (key : Nat)
  /-- The pseudo-instruction PERMB (R63). -/
  | permb (data : Nat)
  /-- The pseudo-instruction IPERMB (R63). -/
  | ipermb (data : Nat)
  /-- `.word`: a raw command word, an illegal one too (R62). -/
  | word (w : Nat)
deriving DecidableEq, Repr

end Sys2Proof
end

