-- ==== Sys2Proof/WellFormed.lean ====
section
/-! DEFINITION. Well-formed terms.

A command carries its operands as 8-bit fields, so the field widths of R51 leave nothing to check in
`Instr` (R53: "no out-of-range value can be encoded"). The assembler's literals are checked here (R62). -/

namespace Sys2Proof

/-- Every command of the table is well formed: each key and each data value is legal (R53, R54). -/
def Instr.wellFormed : Instr → Bool
  | .encb _ _ => true
  | .decb _ _ => true
  | .encs _ => true
  | .decs _ => true

/-- An operand literal the assembler takes: 0 to 255 (R62). -/
def literalOk (n : Nat) : Bool := n ≤ 255

/-- The assembler refuses a statement with a literal outside its range, and never truncates it (R62). -/
def Source.wellFormed : Source → Bool
  | .encb data key => literalOk data && literalOk key
  | .decb data key => literalOk data && literalOk key
  | .encs key => literalOk key
  | .decs key => literalOk key
  | .permb data => literalOk data
  | .ipermb data => literalOk data
  | .word w => w < 2 ^ 32

end Sys2Proof
end

