-- ==== Sys2Proof/Decode.lean ====
section
/-! DEFINITION. The command decoder (R50 to R57), and after it the encoder. -/

namespace Sys2Proof

/-- OPC, bits [3:0] (R51). -/
def opcField (w : CmdWord) : BitVec 4 := w.extractLsb' 0 4

/-- RSV0, bits [7:4], must be 0000 (R51). -/
def rsv0Field (w : CmdWord) : BitVec 4 := w.extractLsb' 4 4

/-- KEY, bits [15:8], used as is (R51, R53). -/
def keyField (w : CmdWord) : Byte := w.extractLsb' 8 8

/-- DATA, bits [23:16], used as is (R51, R54). -/
def dataField (w : CmdWord) : Byte := w.extractLsb' 16 8

/-- RSV1, bits [31:24], must be 0x00 (R51). -/
def rsv1Field (w : CmdWord) : BitVec 8 := w.extractLsb' 24 8

/-- Why a word is no command: the three cases of R57, and a byte sequence that is not one word (R50).
The names are the model's (log entry 11); the unit reports all of them as ILLEGAL_COMMAND. -/
inductive IllegalWord where
  /-- RSV0 ≠ 0 or RSV1 ≠ 0. -/
  | reservedBits
  /-- OPC is one of 0x4 to 0xF. -/
  | reservedOpcode
  /-- OPC is 0x2 or 0x3 and DATA ≠ 0. -/
  | streamData
  /-- The bytes do not make up exactly one 32-bit word. -/
  | notOneWord
deriving DecidableEq, Repr

/-- The decode function of R56, total over all words, in the order the spec writes its tests. -/
def decode (w : CmdWord) : Except IllegalWord Instr :=
  if rsv0Field w ≠ 0 ∨ rsv1Field w ≠ 0 then .error .reservedBits
  else
    match (opcField w).toNat with
    | 0 => .ok (.encb (dataField w) (keyField w))
    | 1 => .ok (.decb (dataField w) (keyField w))
    | 2 => if dataField w ≠ 0 then .error .streamData else .ok (.encs (keyField w))
    | 3 => if dataField w ≠ 0 then .error .streamData else .ok (.decs (keyField w))
    | _ => .error .reservedOpcode

/-- A command word from its bytes: byte 0 is bits [7:0] (R35); a list of another length is none (log
entry 10). -/
def wordOfBytes : List Byte → Option CmdWord
  | [b0, b1, b2, b3] => some (b3 ++ b2 ++ b1 ++ b0)
  | _ => none

/-- The bytes of a command word, byte 0 first (R35). -/
def bytesOfWord (w : CmdWord) : List Byte :=
  [w.extractLsb' 0 8, w.extractLsb' 8 8, w.extractLsb' 16 8, w.extractLsb' 24 8]

/-- The decoder on any bytes: four of them are a word (R35, R50). That any other list is refused, and
under which name, is the model's choice (log entries 10 and 11). -/
def decodeBytes (bs : List Byte) : Except IllegalWord Instr :=
  match wordOfBytes bs with
  | some w => decode w
  | none => .error .notOneWord

/-- The bytes that carry the low `nbits` bits of `w`: one word, or more bytes where the bits above a
word are not all zero (log entry 10). -/
def bytesOfTableWord (nbits w : Nat) : List Byte :=
  let v := w % 2 ^ nbits
  bytesOfWord (BitVec.ofNat 32 v) ++ (if v / 2 ^ 32 = 0 then [] else [BitVec.ofNat 8 (v / 2 ^ 32)])

/-- The command the decoder reads from an opcode-table word. -/
def decodeTableWord (nbits w : Nat) : Option Instr :=
  match decodeBytes (bytesOfTableWord nbits w) with
  | .ok i => some i
  | .error _ => none

/-- The word of a command: RSV1, DATA, KEY, RSV0, OPC from the top, with OPC of R52 (R51, R62). -/
def encode : Instr → CmdWord
  | .encb data key => 0x00#8 ++ data ++ key ++ 0x0#4 ++ 0x0#4
  | .decb data key => 0x00#8 ++ data ++ key ++ 0x0#4 ++ 0x1#4
  | .encs key => 0x00#8 ++ 0x00#8 ++ key ++ 0x0#4 ++ 0x2#4
  | .decs key => 0x00#8 ++ 0x00#8 ++ key ++ 0x0#4 ++ 0x3#4

/-- The "mask" column of the opcode map (R56). -/
def encodingMask : Instr → CmdWord
  | .encb _ _ => 0xFF0000FF
  | .decb _ _ => 0xFF0000FF
  | .encs _ => 0xFFFF00FF
  | .decs _ => 0xFFFF00FF

/-- The "match" column of the opcode map (R56). -/
def encodingMatch : Instr → CmdWord
  | .encb _ _ => 0x00000000
  | .decb _ _ => 0x00000001
  | .encs _ => 0x00000002
  | .decs _ => 0x00000003

end Sys2Proof
end

