-- ==== Sys2Proof/Machine/State.lean ====
section
/-! DEFINITION. The machine's state: the unit's registers (R10), and the agents at its ports (R9, R34). -/

namespace Sys2Proof.Machine

/-- The phase `st` (R11). Its binary encoding is not architected (D27). -/
inductive Phase where
  /-- The unit accepts a command. -/
  | idle
  /-- A stream command waits for the answer to its `StreamRead()`. -/
  | read
  /-- A stream command waits for the answer to `StreamWrite(OBUF)`. -/
  | write
  /-- A stream command waits for the answer to `StreamFlush()`. -/
  | flush
  /-- RSP_R waits for HOST to take it. -/
  | resp
deriving DecidableEq, Repr

/-- SRC's answer to a `StreamRead()` (R31). -/
inductive SrcAnswer where
  | byte (b : Byte)
  | eos
  | fault
deriving DecidableEq, Repr

/-- SNK's answer to a `StreamWrite(b)` or a `StreamFlush()` (R32). -/
inductive SnkAnswer where
  | ok
  | fail
deriving DecidableEq, Repr

/-- What SRC drives with its answer: the wires `src_kind` and `src_data` (R34). -/
structure SrcSample where
  kind : BitVec 2
  data : Byte
deriving DecidableEq, Repr

/-- The control inputs of R34 at one rising edge of `clk`: which agents act at this edge. An agent that
has nothing to offer (an empty queue) does not act, whatever stands here (`ports`). -/
structure Edge where
  /-- HOST drives `rst` high. -/
  rst : Bool
  /-- HOST offers its next command. -/
  cmdValid : Bool
  /-- HOST takes a response. -/
  rspReady : Bool
  /-- SRC answers a read. -/
  srcAck : Bool
  /-- SNK answers a write or a flush. -/
  snkAck : Bool
deriving DecidableEq, Repr

/-- An edge at which no agent acts. -/
def Edge.quiet : Edge :=
  { rst := false, cmdValid := false, rspReady := false, srcAck := false, snkAck := false }

/-- One completed transaction, as HOST, SRC and SNK observe it (R23, R34, R38), or a reset edge (R130). -/
inductive Txn where
  /-- A rising edge with `rst` = 1. -/
  | reset
  /-- The unit accepted a command word. -/
  | command (w : CmdWord)
  /-- A `StreamRead()` and SRC's answer. -/
  | read (a : SrcAnswer)
  /-- A `StreamWrite(b)` and SNK's answer. -/
  | write (b : Byte) (r : SnkAnswer)
  /-- A `StreamFlush()` and SNK's answer. -/
  | flush (r : SnkAnswer)
  /-- HOST took a response word. -/
  | response (w : RspWord)
deriving DecidableEq, Repr

/-- The state. The first six fields are the unit's whole architectural state but for the constant PTABLE
(R10); the others are the agents at its ports, as plain data (log entries 1, 4, 5). -/
structure State where
  /-- `st`: the phase (R11). -/
  st : Phase
  /-- KEY_R: the key of the stream command (R17). -/
  keyR : Byte
  /-- MODE_R: 0 = Encrypt, 1 = Decrypt (R18). -/
  modeR : BitVec 1
  /-- COUNT: bytes SNK has accepted, modulo 2^48 (R20). -/
  count : Count
  /-- OBUF: the transformed byte waiting to be written (R21). -/
  obuf : Byte
  /-- RSP_R: the response word (R19). -/
  rspR : RspWord
  /-- The control inputs at the coming rising edges, the next one first. After the last, no agent acts. -/
  edges : List Edge
  /-- The commands HOST has to offer; the first is the one on `cmd_word`, offered or not (log entry 1). -/
  cmds : List CmdWord
  /-- The input stream's side of the port: the answers SRC will give, the next one first (R31). -/
  src : List SrcSample
  /-- The `snk_fail` levels SNK will answer with, the next one first (R32). -/
  snk : List Bool
  /-- The platform has bound SRC and SNK to the same storage (R137). -/
  aliased : Bool
  /-- The transactions completed so far, oldest first: the agents' record, read by no rule of the unit. -/
  trace : List Txn
deriving DecidableEq, Repr

/-- Reasons a step stops with a fault: none. The unit does not trap and "no other error, exception or
fault exists in the unit" (R110); every error is a response (R116). -/
inductive Fault where
deriving DecidableEq, Repr

/-- Reasons a step is given no meaning. -/
inductive Refusal where
  /-- Raised by `exec` for an instruction without a meaning; no arm raises it in this model. Safe: nothing
  is claimed of the instruction. -/
  | notModelled (mnemonic : String)
  /-- Raised by ENCS and DECS in IDLE when SRC and SNK are bound to the same storage: "This spec refuses
  the aliased configuration" (R137, I11). Safe: nothing is claimed of such a run. -/
  | aliasedStreams
deriving DecidableEq, Repr

/-- The machine after reset: the unit's registers as R24 lists them, and agents with nothing to do yet
(log entries 1, 4, 5 and 7). -/
def State.reset : State :=
  { st := .idle, keyR := 0x00, modeR := 0, count := 0, obuf := 0x00, rspR := 0x0000000000000000,
    edges := [], cmds := [], src := [], snk := [], aliased := false, trace := [] }

end Sys2Proof.Machine
end

