-- ==== Sys2Proof/Machine/Cipher.lean ====
section
/-! DEFINITION. The byte transform (R70 to R75, R96), from PTABLE alone (I19). -/

namespace Sys2Proof.Machine

/-- `bit(b, p)` = `(b >> p) & 1` (R8). -/
def bit (b : Byte) (p : Fin 8) : BitVec 1 := ((b >>> p.val) &&& 1).setWidth 1

/-- `setbit(b, p, v)` = `(b & ~(1 << p)) | (v << p)` (R8). -/
def setbit (b : Byte) (p : Fin 8) (v : BitVec 1) : Byte :=
  (b &&& ~~~((1 : Byte) <<< p.val)) ||| (v.setWidth 8 <<< p.val)

/-- PTABLE: the destination of each source bit position (R12). The only place it is written (I19; log
entry 6: its literals are unaudited). -/
def ptable : Vector (Fin 8) 8 := #v[2, 3, 4, 6, 7, 0, 1, 5]

/-- `dst(s)`: the entry of PTABLE at source position `s` (R12). -/
def dst (s : Fin 8) : Fin 8 := ptable[s.val]

/-- The positions a loop over the table visits, 0 to 7 (R70, R71). -/
def positions : List (Fin 8) := [0, 1, 2, 3, 4, 5, 6, 7]

/-- The forward permutation `P`: from 0x00, bit `s` of the input to bit `dst(s)` (R70, R74). -/
def perm (x : Byte) : Byte :=
  positions.foldl (fun r s => setbit r (dst s) (bit x s)) 0x00

/-- The inverse permutation: from 0x00, bit `dst(s)` of the input to bit `s` (R71, R74). -/
def permInv (c : Byte) : Byte :=
  positions.foldl (fun y s => setbit y s (bit c (dst s))) 0x00

/-- `EncryptByte(b, k)` = `P(b ⊕ k)` (R72). -/
def encryptByte (b k : Byte) : Byte := perm (b ^^^ k)

/-- `DecryptByte(c, k)` = `P⁻¹(c) ⊕ k` (R73). -/
def decryptByte (c k : Byte) : Byte := permInv c ^^^ k

/-- `Xform(mode, b, k)`: EncryptByte where `mode` = 0, DecryptByte where `mode` = 1 (R96). -/
def xform (mode : BitVec 1) (b k : Byte) : Byte :=
  if mode = 0 then encryptByte b k else decryptByte b k

end Sys2Proof.Machine
end

