-- ==== Sys2Proof/Machine/Flags.lean ====
section
/-! DEFINITION. The unit has no condition flags (R16). What stands in their place is the response word and
its STATUS field (R59, R60). -/

namespace Sys2Proof.Machine

/-- The four outcomes the unit reports (R60, R110). -/
inductive Status where
  | ok
  | readError
  | writeError
  | illegalCommand
deriving DecidableEq, Repr

/-- The STATUS encoding (R60). -/
def Status.code : Status → BitVec 2
  | .ok => 0b00
  | .readError => 0b01
  | .writeError => 0b10
  | .illegalCommand => 0b11

/-- `mkRsp(result, status, count)` = count, six zeros, status, result, from the top (R59). -/
def mkRsp (result : Byte) (status : Status) (count : Count) : RspWord :=
  count ++ 0b000000#6 ++ status.code ++ result

/-- RESULT, bits [7:0] of a response word (R59). -/
def rspResult (w : RspWord) : Byte := w.extractLsb' 0 8

/-- STATUS, bits [9:8] of a response word (R59). -/
def rspStatus (w : RspWord) : BitVec 2 := w.extractLsb' 8 2

/-- RSV, bits [15:10] of a response word (R59). -/
def rspReserved (w : RspWord) : BitVec 6 := w.extractLsb' 10 6

/-- COUNT, bits [63:16] of a response word (R59). -/
def rspCount (w : RspWord) : Count := w.extractLsb' 16 48

/-- The bytes of a response word over a byte-wide transport: byte 0 is bits [7:0] (R35). -/
def bytesOfRsp (w : RspWord) : List Byte :=
  [w.extractLsb' 0 8, w.extractLsb' 8 8, w.extractLsb' 16 8, w.extractLsb' 24 8,
    w.extractLsb' 32 8, w.extractLsb' 40 8, w.extractLsb' 48 8, w.extractLsb' 56 8]

/-- A response word from its bytes, byte 0 first (R35); a list of another length is none (log entry 10). -/
def rspOfBytes : List Byte → Option RspWord
  | [b0, b1, b2, b3, b4, b5, b6, b7] => some (b7 ++ b6 ++ b5 ++ b4 ++ b3 ++ b2 ++ b1 ++ b0)
  | _ => none

end Sys2Proof.Machine
end

