-- ==== Sys2Proof/Machine/Ops.lean ====
section
/-! DEFINITION. The shared operations on the state: responding, error entry and return, the start of a
stream command, reset, and the bookkeeping of the agents. -/

namespace Sys2Proof.Machine

/-- `Respond(w)`: `RSP_R <- w; st <- RESP` (R19). -/
def State.respond (s : State) (w : RspWord) : State := { s with rspR := w, st := .resp }

/-- Error entry, the unit's only form of exception: STATUS and COUNT into RSP_R, phase RESP (R116). -/
def State.raiseError (s : State) (status : Status) (count : Count) : State :=
  s.respond (mkRsp 0x00 status count)

/-- HOST takes the response: `st <- IDLE`; RSP_R keeps its value (R95). It is the return from an error
too: nothing is sticky (R117). -/
def State.takeResponse (s : State) : State := { s with st := .idle }

/-- The acceptance of a stream command: KEY_R, MODE_R, COUNT <- 0, phase READ (R90, R91). -/
def State.startStream (s : State) (mode : BitVec 1) (key : Byte) : State :=
  { s with keyR := key, modeR := mode, count := 0, st := .read }

/-- The action on an illegal word: respond ILLEGAL_COMMAND with COUNT 0, nothing else (R113). -/
def State.illegalCommand (s : State) : State := s.raiseError .illegalCommand 0

/-- The reset edge: every register of the unit takes the value of R24 (R130). HOST, SRC and SNK are not
part of the unit: accepted bytes stay accepted and delivered bytes stay consumed (R131). -/
def State.unitReset (s : State) : State :=
  { s with st := .idle, keyR := 0x00, modeR := 0, count := 0, obuf := 0x00, rspR := 0x0000000000000000 }

/-- A command runs only in IDLE; in any other phase it is not taken and nothing changes (R101). -/
def State.whenIdle (s : State) (o : Host.Outcome State Fault Refusal) :
    Host.Outcome State Fault Refusal :=
  match s.st with
  | .idle => o
  | .read => .next s
  | .write => .next s
  | .flush => .next s
  | .resp => .next s

/-- A stream command has no meaning where SRC and SNK are one storage (R137). -/
def State.unlessAliased (s : State) (o : Host.Outcome State Fault Refusal) :
    Host.Outcome State Fault Refusal :=
  if s.aliased then .refused .aliasedStreams else o

/-- The agents note a completed transaction. -/
def State.record (s : State) (t : Txn) : State := { s with trace := s.trace ++ [t] }

/-- The rising edge passes. -/
def State.passEdge (s : State) : State := { s with edges := s.edges.tail }

/-- HOST's command has been accepted: HOST goes on to its next one. -/
def State.popCmd (s : State) : State := { s with cmds := s.cmds.tail }

/-- SRC's answer has been taken: the next read gets the next one (R39). -/
def State.popSrc (s : State) : State := { s with src := s.src.tail }

/-- SNK's answer has been taken. -/
def State.popSnk (s : State) : State := { s with snk := s.snk.tail }

/-- HOST offers the word `w` at the next edge, to a unit in IDLE, with `rst` low. -/
def State.offerCommand (s : State) (w : CmdWord) : State :=
  { s with st := .idle, cmds := w :: s.cmds, edges := { Edge.quiet with cmdValid := true } :: s.edges }

end Sys2Proof.Machine
end

