-- ==== Sys2Proof/Machine/ByteOps.lean ====
section
/-! DEFINITION. The byte commands (R76, R77). They write RSP_R and `st` only, and cannot fail. -/

namespace Sys2Proof.Machine

/-- ENCB: `Respond(mkRsp(EncryptByte(data, key), OK, 0))` (R76). -/
def execEncb (data key : Byte) (s : State) : Host.Outcome State Fault Refusal :=
  s.whenIdle (.next (s.respond (mkRsp (encryptByte data key) .ok 0)))

/-- DECB: `Respond(mkRsp(DecryptByte(data, key), OK, 0))` (R77). -/
def execDecb (data key : Byte) (s : State) : Host.Outcome State Fault Refusal :=
  s.whenIdle (.next (s.respond (mkRsp (decryptByte data key) .ok 0)))

end Sys2Proof.Machine
end

