-- ==== Sys2Proof/Machine/StreamOps.lean ====
section
/-! DEFINITION. The acceptance of the stream commands (R90, R91). It issues no stream transaction; the
engine's steps follow, one per phase (Machine/Engine.lean). -/

namespace Sys2Proof.Machine

/-- ENCS: start a stream encryption, MODE_R = 0 (R90). -/
def execEncs (key : Byte) (s : State) : Host.Outcome State Fault Refusal :=
  s.whenIdle (s.unlessAliased (.next (s.startStream 0 key)))

/-- DECS: start a stream decryption, MODE_R = 1 (R91). -/
def execDecs (key : Byte) (s : State) : Host.Outcome State Fault Refusal :=
  s.whenIdle (s.unlessAliased (.next (s.startStream 1 key)))

end Sys2Proof.Machine
end

