-- ==== Sys2Proof/Machine/Dispatch.lean ====
section
/-! DEFINITION. One arm per command: the acceptance step of each (R76, R77, R90, R91). -/

namespace Sys2Proof.Machine

def exec (i : Instr) (s : State) : Host.Outcome State Fault Refusal :=
  match i with
  | .encb data key => Sys2Proof.Machine.execEncb data key s
  | .decb data key => Sys2Proof.Machine.execDecb data key s
  | .encs key => Sys2Proof.Machine.execEncs key s
  | .decs key => Sys2Proof.Machine.execDecs key s

end Sys2Proof.Machine
end

