-- ==== Sys2Proof/Machine/Operands.lean ====
section
/-! DEFINITION. What reaches a command besides its KEY and DATA fields (those are Decode.lean's): the
connected SRC and SNK (R55), whose wires are read here. The unit has no other operand form. -/

namespace Sys2Proof.Machine

/-- SRC's answer from the wires: 00 Byte, 01 Eos, 10 Fault, and the reserved 11 taken as Fault
(R34, R115). `src_data` is read only with 00. -/
def SrcSample.answer (x : SrcSample) : SrcAnswer :=
  match x.kind.toNat with
  | 0 => .byte x.data
  | 1 => .eos
  | _ => .fault

/-- SNK's answer from the wire `snk_fail`: 0 = Ok, 1 = Fail (R34). -/
def snkAnswer (fail : Bool) : SnkAnswer := if fail then .fail else .ok

end Sys2Proof.Machine
end

