-- ==== Sys2Proof/Machine/Engine.lean ====
section
/-! DEFINITION. The stream engine: the step of each phase when its counterpart answers (R92 to R94), and
the loop those steps amount to (R98). -/

namespace Sys2Proof.Machine

/-- Phase READ, SRC answers (R92). -/
def State.onRead (s : State) : SrcAnswer → State
  | .byte b => { s with obuf := xform s.modeR b s.keyR, st := .write }
  | .eos => { s with st := .flush }
  | .fault => s.raiseError .readError s.count

/-- Phase WRITE, SNK answers (R93). COUNT wraps modulo 2^48 and leaves out a rejected byte. -/
def State.onWrite (s : State) : SnkAnswer → State
  | .ok => { s with count := s.count + 1, st := .read }
  | .fail => s.raiseError .writeError s.count

/-- Phase FLUSH, SNK answers (R94). -/
def State.onFlush (s : State) : SnkAnswer → State
  | .ok => s.respond (mkRsp 0x00 .ok s.count)
  | .fail => s.raiseError .writeError s.count

/-- The loop of R98 from its first read with COUNT = `n`, on the answers SRC and SNK give: the
transactions it performs and its response, which is `none` where an agent stops answering before the end
(R136: the command hangs after the transactions so far). -/
def streamCommand (mode : BitVec 1) (key : Byte) :
    Count → List SrcAnswer → List SnkAnswer → List Txn × Option RspWord
  | _, [], _ => ([], none)
  | n, .fault :: _, _ => ([.read .fault], some (mkRsp 0x00 .readError n))
  | _, .eos :: _, [] => ([.read .eos], none)
  | n, .eos :: _, .ok :: _ => ([.read .eos, .flush .ok], some (mkRsp 0x00 .ok n))
  | n, .eos :: _, .fail :: _ => ([.read .eos, .flush .fail], some (mkRsp 0x00 .writeError n))
  | _, .byte b :: _, [] => ([.read (.byte b)], none)
  | n, .byte b :: _, .fail :: _ =>
    ([.read (.byte b), .write (xform mode b key) .fail], some (mkRsp 0x00 .writeError n))
  | n, .byte b :: rs, .ok :: ws =>
    let rest := streamCommand mode key (n + 1) rs ws
    (.read (.byte b) :: .write (xform mode b key) .ok :: rest.1, rest.2)

end Sys2Proof.Machine
end

