-- ==== Sys2Proof/Machine/Ports.lean ====
section
/-! DEFINITION. The unit's ports at one rising edge of `clk` (R34), and which handshake completes. -/

namespace Sys2Proof.Machine

/-- The levels of every wire of R34 but `clk` at one rising edge. -/
structure Ports where
  rst : Bool
  cmdValid : Bool
  cmdReady : Bool
  cmdWord : CmdWord
  rspValid : Bool
  rspReady : Bool
  rspWord : RspWord
  srcReq : Bool
  srcAck : Bool
  srcKind : BitVec 2
  srcData : Byte
  snkReq : Bool
  snkOp : Bool
  snkData : Byte
  snkAck : Bool
  snkFail : Bool
deriving DecidableEq, Repr

/-- The control inputs at the next edge; no agent acts once the list has ended (log entry 1). -/
def State.edge (s : State) : Edge := s.edges.headD Edge.quiet

/-- The wires at the next edge (R34). An agent acts where its edge says so and it has something to say.
What `cmd_word`, `src_kind`, `src_data` and `snk_fail` carry where the agent does not act the spec leaves
open: here the head of the agent's queue, acting or not, and 0 where the queue is empty (DESIGN CHOICE, log
entry 1). No handshake completes there, so no rule reads these levels. -/
def ports (s : State) : Ports :=
  { rst := s.edge.rst
    cmdValid := s.edge.cmdValid && !s.cmds.isEmpty
    cmdReady := s.st == .idle && !s.edge.rst
    cmdWord := s.cmds.headD 0
    rspValid := s.st == .resp
    rspReady := s.edge.rspReady
    rspWord := s.rspR
    srcReq := s.st == .read
    srcAck := s.edge.srcAck && !s.src.isEmpty
    srcKind := (s.src.headD ⟨0, 0⟩).kind
    srcData := (s.src.headD ⟨0, 0⟩).data
    snkReq := s.st == .write || s.st == .flush
    snkOp := s.st == .flush
    snkData := if s.st == .flush then 0x00 else s.obuf
    snkAck := s.edge.snkAck && !s.snk.isEmpty
    snkFail := s.snk.headD false }

/-- A handshake completes where `rst` = 0 and both sides of its pair are 1 (R34): the command port. -/
def Ports.commandDone (p : Ports) : Bool := !p.rst && (p.cmdValid && p.cmdReady)

/-- The response port's handshake completes (R34). -/
def Ports.responseDone (p : Ports) : Bool := !p.rst && (p.rspValid && p.rspReady)

/-- The source port's handshake completes (R34). -/
def Ports.readDone (p : Ports) : Bool := !p.rst && (p.srcReq && p.srcAck)

/-- The sink port's handshake completes (R34). -/
def Ports.sinkDone (p : Ports) : Bool := !p.rst && (p.snkReq && p.snkAck)

end Sys2Proof.Machine
end

