-- ==== Sys2Proof/Machine/Clock.lean ====
section
/-! DEFINITION. One rising edge of `clk`: reset, or the one handshake that completes, or nothing (R34,
R114, R130). -/

namespace Sys2Proof.Machine

/-- The unit takes the word `w`: legality is settled at acceptance, before any stream transaction (R114);
an illegal word completes at once (R113). -/
def acceptCommand (w : CmdWord) (s : State) : Host.Outcome State Fault Refusal :=
  match decode w with
  | .ok i => exec i s
  | .error _ => .next s.illegalCommand

/-- The step when SRC answers `a` (R92). -/
def takeRead (a : SrcAnswer) (s : State) : State := (s.popSrc.record (.read a)).onRead a

/-- The step when SNK answers `r` to `StreamFlush()` (`snk_op` = 1, R94) or to `StreamWrite(b)` (R93). -/
def takeSink (flushing : Bool) (b : Byte) (r : SnkAnswer) (s : State) : State :=
  if flushing then (s.popSnk.record (.flush r)).onFlush r
  else (s.popSnk.record (.write b r)).onWrite r

/-- One rising edge. Reset comes before every handshake and no handshake completes with it (R114, R130);
at most one handshake can complete (`20_memory.md` section 3). That an edge at which none completes only passes
is the model's reading (log entry 2, DEDUCED). -/
def clockEdge (s : State) : Host.Outcome State Fault Refusal :=
  let p := ports s
  let t := s.passEdge
  if p.rst then .next (t.unitReset.record .reset)
  else if p.commandDone then acceptCommand p.cmdWord (t.popCmd.record (.command p.cmdWord))
  else if p.responseDone then .next (t.takeResponse.record (.response p.rspWord))
  else if p.readDone then .next (takeRead (SrcSample.answer ⟨p.srcKind, p.srcData⟩) t)
  else if p.sinkDone then .next (takeSink p.snkOp p.snkData (snkAnswer p.snkFail) t)
  else .next t

end Sys2Proof.Machine
end

