-- ==== Sys2Proof/Machine/Step.lean ====
section
/-! DEFINITION. The step, runs of steps, and where the next command is put. -/

namespace Sys2Proof.Machine

/-- One step is one rising edge of `clk` (log entry 2). -/
def step (s : State) : Host.Outcome State Fault Refusal := clockEdge s

/-- `n` steps, stopping at a refusal. -/
def steps : Nat → State → Host.Outcome State Fault Refusal
  | 0, s => .next s
  | n + 1, s =>
    match step s with
    | .next s' => steps n s'
    | .fault r => .fault r
    | .refused r => .refused r

/-- The state `s` with the opcode-table word offered by HOST at the next edge. Nothing is fetched (R43): a
command arrives on the command port, which takes one in IDLE only (R101; log entry 7). -/
def State.withFetchWord (s : State) (nbits w : Nat) : State :=
  s.offerCommand (BitVec.ofNat 32 (w % 2 ^ nbits))

end Sys2Proof.Machine
end

