-- ==== Sys2Proof/Machine/Assembler.lean ====
section
/-! DEFINITION. The assembler of R62 and R63: a line of text to a statement, a statement to one word. -/

namespace Sys2Proof.Machine

/-- The one command word a statement assembles to; a literal out of range is refused, never truncated
(R62). The pseudo-instructions expand to `ENCB data, 0` and `DECB data, 0` (R63). -/
def assemble (x : Source) : Option CmdWord :=
  if x.wellFormed then
    match x with
    | .encb data key => some (encode (.encb (BitVec.ofNat 8 data) (BitVec.ofNat 8 key)))
    | .decb data key => some (encode (.decb (BitVec.ofNat 8 data) (BitVec.ofNat 8 key)))
    | .encs key => some (encode (.encs (BitVec.ofNat 8 key)))
    | .decs key => some (encode (.decs (BitVec.ofNat 8 key)))
    | .permb data => some (encode (.encb (BitVec.ofNat 8 data) 0))
    | .ipermb data => some (encode (.decb (BitVec.ofNat 8 data) 0))
    | .word w => some (BitVec.ofNat 32 w)
  else none

/-- The value of a decimal digit. -/
def decDigit (c : Char) : Option Nat :=
  if 48 ≤ c.toNat ∧ c.toNat ≤ 57 then some (c.toNat - 48) else none

/-- The value of a hexadecimal digit, in either case (log entry 12). -/
def hexDigit (c : Char) : Option Nat :=
  if 48 ≤ c.toNat ∧ c.toNat ≤ 57 then some (c.toNat - 48)
  else if 65 ≤ c.toNat ∧ c.toNat ≤ 70 then some (c.toNat - 55)
  else if 97 ≤ c.toNat ∧ c.toNat ≤ 102 then some (c.toNat - 87)
  else none

/-- The value of a row of digits in a base, from the digits read so far. -/
def digits (base : Nat) (digit : Char → Option Nat) : Nat → List Char → Option Nat
  | n, [] => some n
  | n, c :: cs =>
    match digit c with
    | some d => digits base digit (n * base + d) cs
    | none => none

/-- An integer literal: decimal, or hexadecimal after `0x` (R62). -/
def literal : List Char → Option Nat
  | [] => none
  | ['0', 'x'] => none
  | '0' :: 'x' :: cs => digits 16 hexDigit 0 cs
  | cs => digits 10 decDigit 0 cs

/-- A space or a tab (log entry 12). -/
def isBlank (c : Char) : Bool := c == ' ' || c == '\t'

/-- The words of a line: blanks part them, a comma is a word of its own, and `;` ends the line (R62).
`word` is the word being read, backwards. -/
def tokens : List Char → List Char → List (List Char)
  | word, [] => if word.isEmpty then [] else [word.reverse]
  | word, c :: cs =>
    let done := if word.isEmpty then [] else [word.reverse]
    if c == ';' then done
    else if isBlank c then done ++ tokens [] cs
    else if c == ',' then done ++ [[',']] ++ tokens [] cs
    else tokens (c :: word) cs

/-- A statement of one operand. -/
def oneOperand (f : Nat → Source) (a : List Char) : Option (Option Source) :=
  match literal a with
  | some x => some (some (f x))
  | none => none

/-- A statement of two operands. -/
def twoOperands (f : Nat → Nat → Source) (a b : List Char) : Option (Option Source) :=
  match literal a, literal b with
  | some x, some y => some (some (f x y))
  | _, _ => none

/-- One line of assembly text: a statement, nothing (a blank line or a comment), or an error (R62). -/
def parseLine (cs : List Char) : Option (Option Source) :=
  match tokens [] cs with
  | [] => some none
  | [['E', 'N', 'C', 'B'], a, [','], b] => twoOperands .encb a b
  | [['D', 'E', 'C', 'B'], a, [','], b] => twoOperands .decb a b
  | [['E', 'N', 'C', 'S'], a] => oneOperand .encs a
  | [['D', 'E', 'C', 'S'], a] => oneOperand .decs a
  | [['P', 'E', 'R', 'M', 'B'], a] => oneOperand .permb a
  | [['I', 'P', 'E', 'R', 'M', 'B'], a] => oneOperand .ipermb a
  | [['.', 'w', 'o', 'r', 'd'], a] => oneOperand .word a
  | _ => none

/-- The words of a program's lines, in order; the first error refuses the whole (R62). -/
def assembleLines : List (List Char) → Option (List CmdWord)
  | [] => some []
  | l :: ls =>
    match parseLine l with
    | none => none
    | some none => assembleLines ls
    | some (some x) =>
      match assemble x, assembleLines ls with
      | some w, some ws => some (w :: ws)
      | _, _ => none

end Sys2Proof.Machine
end

