-- ==== Sys2Proof/Machine/System.lean ====
section
/-! DEFINITION. Several units (R123): independent agents that share nothing mutable. -/

namespace Sys2Proof.Machine

/-- A system of units, each with its own state, ports, SRC and SNK (R123). Units have no identifiers; the
position in the list is the model's (log entry 8). -/
structure System where
  units : List State
deriving DecidableEq, Repr

/-- `NUM_UNITS` units, each as reset leaves it (R6, R123). -/
def System.reset (numUnits : Nat) : System := { units := List.replicate numUnits State.reset }

/-- Unit `k` takes one step; no other unit moves (R123). A position without a unit does nothing. Where the
unit's step is refused (an aliased stream command, R137), the whole system's step is refused: DESIGN CHOICE.
The spec gives that one command no meaning and does not say what becomes of the other units (log entry 8). -/
def System.stepUnit (k : Nat) (sys : System) : Host.Outcome System Fault Refusal :=
  match sys.units[k]? with
  | none => .next sys
  | some u =>
    match step u with
    | .next u' => .next { units := sys.units.set k u' }
    | .fault r => .fault r
    | .refused r => .refused r

/-- The units take steps in the order of the schedule. One unit's refusal ends the whole run, the other
units' steps too: DESIGN CHOICE (log entry 8). -/
def System.run : List Nat → System → Host.Outcome System Fault Refusal
  | [], sys => .next sys
  | k :: ks, sys =>
    match sys.stepUnit k with
    | .next sys' => sys'.run ks
    | .fault r => .fault r
    | .refused r => .refused r

end Sys2Proof.Machine
end

