-- ==== Sys2Proof/Safety.lean ====
section
/-! DEFINITION. The terms claims use: what the agents observed (from the trace), what order of transactions
is a legal one, what a stream command's data and response must be, and when a run has ended or hangs. -/

namespace Sys2Proof.Machine

/-! ## The end of a run -/

/-- How far the run of the command accepted last has come (R140). -/
inductive RunStatus where
  /-- No command has been accepted yet. -/
  | noCommand
  /-- The command has been accepted, and its response has not been taken. -/
  | running
  /-- HOST has taken the command's response. -/
  | ended
  /-- A reset abandoned the command (R131): its run has not ended and never will. -/
  | abandoned
deriving DecidableEq, Repr

/-- One transaction more. A reset with no command running abandons nothing. -/
def RunStatus.observe (r : RunStatus) : Txn → RunStatus
  | .command _ => .running
  | .response _ => if r = .running then .ended else r
  | .reset => if r = .running then .abandoned else r
  | .read _ => r
  | .write _ _ => r
  | .flush _ => r

/-- The run of the command accepted last, read from the history. -/
def State.lastRun (s : State) : RunStatus := s.trace.foldl RunStatus.observe .noCommand

/-- The last command's run has ended: HOST has taken its response and the unit is in IDLE. A run that is
not in IDLE, or that a reset abandoned, has not ended (R140). -/
def ended (s : State) : Bool := s.st == .idle && s.lastRun == .ended

/-- The transitions of R11, a reset apart. -/
def phaseStep : Phase → Phase → Bool
  | .idle, .resp => true
  | .idle, .read => true
  | .read, .write => true
  | .read, .flush => true
  | .read, .resp => true
  | .write, .read => true
  | .write, .resp => true
  | .flush, .resp => true
  | .resp, .idle => true
  | _, _ => false

/-! ## What the agents observed -/

/-- The output stream: the bytes SNK accepted, in acceptance order (R36, R45). -/
def accepted : List Txn → List Byte
  | [] => []
  | .write b .ok :: ts => b :: accepted ts
  | _ :: ts => accepted ts

/-- The output stream of a state's history, over all its commands. -/
def State.output (s : State) : List Byte := accepted s.trace

/-- What the agents know of the command that runs, or that ran last or was abandoned last. -/
structure Session where
  /-- The command word the unit accepted; none before the first command and after a reset. -/
  command : Option CmdWord
  /-- The bytes SRC has delivered to it. -/
  delivered : List Byte
  /-- The bytes SNK has accepted from it. -/
  accepted : List Byte
  /-- `Eos` or `Fault`, once SRC has answered with one. -/
  sourceEnd : Option SrcAnswer
  /-- A byte SNK has answered `Fail` to. -/
  rejected : Option Byte
  /-- SNK's answer to the flush. -/
  flushed : Option SnkAnswer
deriving DecidableEq, Repr

/-- Before any command. -/
def Session.empty : Session :=
  { command := none, delivered := [], accepted := [], sourceEnd := none, rejected := none, flushed := none }

/-- One transaction more. A reset abandons the command, whose word the session then drops, but the bytes
SNK has accepted stay accepted and those SRC has delivered stay delivered (R131). That the session goes on
to hold them until the next command is accepted, and no longer, is the model's choice (DESIGN CHOICE, log
entry 16). -/
def Session.observe (c : Session) : Txn → Session
  | .reset => { c with command := none }
  | .command w => { Session.empty with command := some w }
  | .read (.byte b) => { c with delivered := c.delivered ++ [b] }
  | .read .eos => { c with sourceEnd := some .eos }
  | .read .fault => { c with sourceEnd := some .fault }
  | .write b .ok => { c with accepted := c.accepted ++ [b] }
  | .write b .fail => { c with rejected := some b }
  | .flush r => { c with flushed := some r }
  | .response _ => c

/-- The session a state's history amounts to. -/
def State.session (s : State) : Session := s.trace.foldl Session.observe Session.empty

/-- What SNK may have made durable of the bytes it accepted, after an error or a reset: any first part of
them (I2, R100, R131; log entry 9). It speaks of the session's command alone, the one that ended or that a
reset abandoned last; for an earlier command, ask the state before the next one was accepted (DESIGN CHOICE,
log entry 16). -/
def Durable (c : Session) (kept : List Byte) : Prop := kept <+: c.accepted

/-! ## The order of transactions -/

/-- What an observer at the ports is waiting for (R41, R59, R98, R101). -/
inductive Watch where
  /-- No command runs. -/
  | between
  /-- A stream command's next transaction is a read. -/
  | reading
  /-- A stream command's next transaction is the write of the byte just read. -/
  | writing
  /-- A stream command's next transaction is the flush. -/
  | flushing
  /-- The command has ended but for its response. -/
  | responding
deriving DecidableEq, Repr

/-- What comes after the acceptance of a word: a read for a stream command, else the response. -/
def Watch.afterCommand (w : CmdWord) : Watch :=
  match decode w with
  | .ok (.encs _) => .reading
  | .ok (.decs _) => .reading
  | .ok (.encb _ _) => .responding
  | .ok (.decb _ _) => .responding
  | .error _ => .responding

/-- What comes after a read (R41). -/
def Watch.afterRead : SrcAnswer → Watch
  | .byte _ => .writing
  | .eos => .flushing
  | .fault => .responding

/-- What comes after a write (R41). -/
def Watch.afterWrite : SnkAnswer → Watch
  | .ok => .reading
  | .fail => .responding

/-- The next thing to wait for, or `none` where the transaction is out of order: a read after an
unanswered write, anything after `Fault` or `Fail`, a second response, a command while one runs. -/
def Watch.next (m : Watch) : Txn → Option Watch
  | .reset => some .between
  | .command w => if m = .between then some (Watch.afterCommand w) else none
  | .read a => if m = .reading then some (Watch.afterRead a) else none
  | .write _ r => if m = .writing then some (Watch.afterWrite r) else none
  | .flush _ => if m = .flushing then some .responding else none
  | .response _ => if m = .responding then some .between else none

/-- The observer over a whole history. -/
def watch : Watch → List Txn → Option Watch
  | m, [] => some m
  | m, t :: ts =>
    match m.next t with
    | some m' => watch m' ts
    | none => none

/-- What the observer waits for in each phase. -/
def Phase.watch : Phase → Watch
  | .idle => .between
  | .read => .reading
  | .write => .writing
  | .flush => .flushing
  | .resp => .responding

/-- The state's history is a legal order of transactions and ends where its phase says. -/
def Orderly (s : State) : Prop := Machine.watch .between s.trace = some s.st.watch

/-! ## A command's data and its response -/

/-- The stream command of a mode (R90, R91). -/
def streamInstr (mode : BitVec 1) (key : Byte) : Instr := if mode = 0 then .encs key else .decs key

/-- The response a finished stream command must have, in the three ways it can end (R92 to R94, R99, R100):
the accepted bytes are the transforms of the delivered ones, but for the one byte SNK rejected. -/
def StreamResponse (mode : BitVec 1) (key : Byte) (c : Session) (w : RspWord) : Prop :=
  let out := c.delivered.map (fun b => xform mode b key)
  let n := BitVec.ofNat 48 c.accepted.length
  (w = mkRsp 0x00 .ok n ∧ c.accepted = out ∧ c.sourceEnd = some .eos ∧ c.rejected = none ∧
    c.flushed = some .ok)
  ∨ (w = mkRsp 0x00 .readError n ∧ c.accepted = out ∧ c.sourceEnd = some .fault ∧ c.rejected = none ∧
    c.flushed = none)
  ∨ (w = mkRsp 0x00 .writeError n ∧ c.accepted = out ∧ c.sourceEnd = some .eos ∧ c.rejected = none ∧
    c.flushed = some .fail)
  ∨ (w = mkRsp 0x00 .writeError n ∧ (∃ b, c.rejected = some b ∧ c.accepted ++ [b] = out) ∧
    c.sourceEnd = none ∧ c.flushed = none)

/-- No stream transaction took place. -/
def Session.noStream (c : Session) : Prop :=
  c.delivered = [] ∧ c.accepted = [] ∧ c.sourceEnd = none ∧ c.rejected = none ∧ c.flushed = none

/-- The response the command word `w` must have (R61). -/
def ResponseTo (w : CmdWord) (c : Session) (r : RspWord) : Prop :=
  match decode w with
  | .ok (.encb data key) => r = mkRsp (encryptByte data key) .ok 0 ∧ c.noStream
  | .ok (.decb data key) => r = mkRsp (decryptByte data key) .ok 0 ∧ c.noStream
  | .ok (.encs key) => StreamResponse 0 key c r
  | .ok (.decs key) => StreamResponse 1 key c r
  | .error _ => r = mkRsp 0x00 .illegalCommand 0 ∧ c.noStream

/-- A stream command is running as its word says: KEY_R and MODE_R are the word's (R17, R18), COUNT counts
the accepted bytes (R20), and nothing has gone wrong yet. -/
def StreamRuns (s : State) : Prop :=
  s.session.command = some (encode (streamInstr s.modeR s.keyR)) ∧
  s.count = BitVec.ofNat 48 s.session.accepted.length ∧
  s.session.rejected = none ∧ s.session.flushed = none

/-- The registers agree with what the agents observed, in every phase (R20, R21, R42, R92 to R95). -/
def Faithful (s : State) : Prop :=
  let c := s.session
  let out := c.delivered.map (fun b => xform s.modeR b s.keyR)
  match s.st with
  | .idle => ∀ w, c.command = some w → ResponseTo w c s.rspR
  | .read => StreamRuns s ∧ c.sourceEnd = none ∧ c.accepted = out
  | .write => StreamRuns s ∧ c.sourceEnd = none ∧ c.accepted ++ [s.obuf] = out
  | .flush => StreamRuns s ∧ c.sourceEnd = some .eos ∧ c.accepted = out
  | .resp => ∃ w, c.command = some w ∧ ResponseTo w c s.rspR

/-! ## Schedules -/

/-- No reset at any of these edges, and HOST takes no response. -/
def undisturbed (es : List Edge) : Bool := es.all (fun e => !e.rst && !e.rspReady)

/-- How many of these edges find both SRC and SNK ready to answer. -/
def answering (es : List Edge) : Nat := es.countP (fun e => e.srcAck && e.snkAck)

/-- A stream command of this mode and key stands at its first read; SRC will deliver `input` and then
`Eos`, SNK will accept every byte and the flush, and both keep answering until the end (R99, R136). -/
structure ReadyFor (mode : BitVec 1) (key : Byte) (input : List Byte) (s : State) : Prop where
  phase : s.st = .read
  mode_eq : s.modeR = mode
  key_eq : s.keyR = key
  count_eq : s.count = 0
  source : input.map SrcAnswer.byte ++ [.eos] <+: s.src.map SrcSample.answer
  sink : List.replicate (input.length + 1) SnkAnswer.ok <+: s.snk.map snkAnswer
  calm : undisturbed s.edges = true
  enough : 2 * input.length + 2 ≤ answering s.edges

/-- The transactions of a successful stream command from its first read on (R41, R99). -/
def streamTrace (mode : BitVec 1) (key : Byte) : List Byte → List Txn
  | [] => [.read .eos, .flush .ok]
  | b :: bs => .read (.byte b) :: .write (xform mode b key) .ok :: streamTrace mode key bs

/-- The same state with other values in the registers no command reads before it writes them (R24). -/
def State.withRegisters (s : State) (keyR : Byte) (modeR : BitVec 1) (count : Count) (obuf : Byte)
    (rspR : RspWord) : State :=
  { s with keyR := keyR, modeR := modeR, count := count, obuf := obuf, rspR := rspR }

/-- Two outcomes HOST, SRC and SNK cannot tell apart: the same refusal, or next states with the same
history and the same handshakes on offer (R23). -/
def sameToAgents : Host.Outcome State Fault Refusal → Host.Outcome State Fault Refusal → Prop
  | .next s, .next t => s.trace = t.trace ∧ s.st = t.st
  | .refused r, .refused q => r = q
  | .fault r, .fault q => r = q
  | _, _ => False

end Sys2Proof.Machine
end

