-- ==== Sys2Proof/Certificates/Slice0/Obligations.lean ====
section
/-! DEFINITION. The statements for the provers. Each docstring names the rule it formalises. -/

open Sys2Proof Sys2Proof.Machine

/-! ## Encoding -/

/-- R51, R52, R56: the word of a command, as a word and as the four bytes of R35, decodes to that command,
at every value of its operands. -/
def Obligations.DecodeEncodeAgree : Prop :=
  ∀ i : Instr, i.wellFormed = true →
    decode (encode i) = .ok i ∧ decodeBytes (bytesOfWord (encode i)) = .ok i

/-- R56: a word that decodes to a command is that command's word; no bit is dropped. -/
def Obligations.EncodeDecodeAgree : Prop :=
  ∀ (w : CmdWord) (i : Instr), decode w = .ok i → i.wellFormed = true ∧ encode i = w

/-- R56: the decoder answers a row's command exactly on the words the row's mask and match admit, with DATA
and KEY read from bits [23:16] and [15:8]. -/
def Obligations.OpcodeMapDecides : Prop :=
  ∀ w : CmdWord,
    (w &&& 0xFF0000FF = 0x00000000 ↔ decode w = .ok (.encb (w.extractLsb' 16 8) (w.extractLsb' 8 8))) ∧
    (w &&& 0xFF0000FF = 0x00000001 ↔ decode w = .ok (.decb (w.extractLsb' 16 8) (w.extractLsb' 8 8))) ∧
    (w &&& 0xFFFF00FF = 0x00000002 ↔ decode w = .ok (.encs (w.extractLsb' 8 8))) ∧
    (w &&& 0xFFFF00FF = 0x00000003 ↔ decode w = .ok (.decs (w.extractLsb' 8 8)))

/-- R57, first half: a word is illegal in exactly three cases. -/
def Obligations.IllegalWordsExactly : Prop :=
  ∀ w : CmdWord,
    (∃ e, decode w = .error e) ↔
      (w.extractLsb' 4 4 ≠ 0 ∨ w.extractLsb' 24 8 ≠ 0)
      ∨ 4 ≤ (w.extractLsb' 0 4).toNat
      ∨ (((w.extractLsb' 0 4).toNat = 2 ∨ (w.extractLsb' 0 4).toNat = 3) ∧ w.extractLsb' 16 8 ≠ 0)

/-- The sentence "Of the 2^32 words, 2^16 decode to ENCB ..." of R57, which the spec marks as derived. -/
def Obligations.LegalWordCounts : Prop :=
  {w : CmdWord | ∃ d k, decode w = .ok (.encb d k)}.ncard = 2 ^ 16 ∧
  {w : CmdWord | ∃ d k, decode w = .ok (.decb d k)}.ncard = 2 ^ 16 ∧
  {w : CmdWord | ∃ k, decode w = .ok (.encs k)}.ncard = 2 ^ 8 ∧
  {w : CmdWord | ∃ k, decode w = .ok (.decs k)}.ncard = 2 ^ 8 ∧
  {w : CmdWord | ∃ e, decode w = .error e}.ncard = 2 ^ 32 - 2 ^ 17 - 2 ^ 9

/-- R35: over a byte-wide transport byte p of either word is bits [8p+7:8p]. The last three clauses rest on
the word lengths (R50 in `30_encoding.md` section 1, R59 in its section 5) and on the MODEL'S CHOICE to refuse a
list of any other length, a command under the name notOneWord (log entries 10 and 11). -/
def Obligations.BytesLittleEndian : Prop :=
  (∀ w : CmdWord, wordOfBytes (bytesOfWord w) = some w) ∧
  (∀ (w : CmdWord) (p : Nat), p < 4 → (bytesOfWord w)[p]? = some (w.extractLsb' (8 * p) 8)) ∧
  (∀ r : RspWord, rspOfBytes (bytesOfRsp r) = some r) ∧
  (∀ (r : RspWord) (p : Nat), p < 8 → (bytesOfRsp r)[p]? = some (r.extractLsb' (8 * p) 8)) ∧
  (∀ bs : List Byte, bs.length = 8 ↔ ∃ r, rspOfBytes bs = some r) ∧
  (∀ bs : List Byte, bs.length = 4 ↔ ∃ w, wordOfBytes bs = some w) ∧
  (∀ bs : List Byte, bs.length ≠ 4 → decodeBytes bs = .error .notOneWord)

/-- Words of `95_test_vectors.md` section 5 decode as its table says (a sanity statement). -/
def Obligations.SampleWordsDecode : Prop :=
  decode 0x00010000 = .ok (.encb 0x01 0x00) ∧ decode 0x00040001 = .ok (.decb 0x04 0x00) ∧
  decode 0x0000FF02 = .ok (.encs 0xFF) ∧ decode 0x00000503 = .ok (.decs 0x05) ∧
  (∃ e, decode 0x00000010 = .error e) ∧ (∃ e, decode 0x00010002 = .error e)

/-- R62, R63 on statements: the word of each mnemonic, the two pseudo-instructions, `.word`, and every
literal out of range refused. That `.word` takes every value below 2^32 is the MODEL'S CHOICE (log entry 12),
and how a line of text is split (same entry) is not stated here. -/
def Obligations.AssemblerWords : Prop :=
  ∀ data key w : Nat,
    (data ≤ 255 → key ≤ 255 →
      assemble (.encb data key) = some (BitVec.ofNat 32 (data * 2 ^ 16 + key * 2 ^ 8 + 0)) ∧
      assemble (.decb data key) = some (BitVec.ofNat 32 (data * 2 ^ 16 + key * 2 ^ 8 + 1)) ∧
      assemble (.encs key) = some (BitVec.ofNat 32 (key * 2 ^ 8 + 2)) ∧
      assemble (.decs key) = some (BitVec.ofNat 32 (key * 2 ^ 8 + 3)) ∧
      assemble (.permb data) = assemble (.encb data 0) ∧
      assemble (.ipermb data) = assemble (.decb data 0)) ∧
    (w < 2 ^ 32 → assemble (.word w) = some (BitVec.ofNat 32 w)) ∧
    (255 < data ∨ 255 < key → assemble (.encb data key) = none ∧ assemble (.decb data key) = none) ∧
    (255 < key → assemble (.encs key) = none ∧ assemble (.decs key) = none) ∧
    (255 < data → assemble (.permb data) = none ∧ assemble (.ipermb data) = none) ∧
    (2 ^ 32 ≤ w → assemble (.word w) = none)

/-! ## The byte transform -/

/-- R12, R13: the entries of PTABLE, each position 0 to 7 a destination exactly once. -/
def Obligations.PtableIsTheBijection : Prop :=
  dst 7 = 5 ∧ dst 6 = 1 ∧ dst 5 = 0 ∧ dst 4 = 7 ∧ dst 3 = 6 ∧ dst 2 = 4 ∧ dst 1 = 3 ∧ dst 0 = 2 ∧
  ∀ d : Fin 8, ∃! s : Fin 8, dst s = d

/-- R8: extracting and replacing a bit. -/
def Obligations.BitPrimitives : Prop :=
  ∀ (b : Byte) (p q : Fin 8) (v : BitVec 1),
    (bit b p = 1 ↔ b.toNat.testBit p = true) ∧
    bit (setbit b p v) p = v ∧ (q ≠ p → bit (setbit b p v) q = bit b q)

/-- R70, R74: `P` moves each bit `s` to `dst(s)`. -/
def Obligations.PermMovesEachBit : Prop :=
  ∀ (x : Byte) (s : Fin 8), bit (perm x) (dst s) = bit x s

/-- R71, R74: the inverse moves each bit `dst(s)` to `s`. -/
def Obligations.PermInvMovesEachBit : Prop :=
  ∀ (c : Byte) (s : Fin 8), bit (permInv c) s = bit c (dst s)

/-- The closed forms under R70 and R71, which the spec marks as derived from the table. -/
def Obligations.PermClosedForms : Prop :=
  ∀ x : Byte,
    perm x = bit x 4 ++ bit x 3 ++ bit x 7 ++ bit x 2 ++ bit x 1 ++ bit x 0 ++ bit x 6 ++ bit x 5 ∧
    permInv x = bit x 5 ++ bit x 1 ++ bit x 0 ++ bit x 7 ++ bit x 6 ++ bit x 4 ++ bit x 3 ++ bit x 2

/-- R72, R73, R75: XOR and permutation, bit by bit. -/
def Obligations.TransformBitByBit : Prop :=
  ∀ (b k : Byte) (s : Fin 8),
    bit (encryptByte b k) (dst s) = bit b s ^^^ bit k s ∧
    bit (decryptByte b k) s = bit b (dst s) ^^^ bit k s

/-- R96: the transform of a stream command is EncryptByte in mode 0 and DecryptByte in mode 1. -/
def Obligations.XformSelectsByMode : Prop :=
  ∀ (b k : Byte) (m : BitVec 1),
    (m = 0 → xform m b k = encryptByte b k) ∧ (m = 1 → xform m b k = decryptByte b k)

/-- R78: DecryptByte inverts EncryptByte under the same key; the converse, which the spec marks as derived,
too. -/
def Obligations.DecryptInvertsEncrypt : Prop :=
  ∀ b k : Byte, decryptByte (encryptByte b k) k = b ∧ encryptByte (decryptByte b k) k = b

/-- The laws (a) to (d) and (f) of R80, which the spec marks as derived. -/
def Obligations.PermutationLaws : Prop :=
  (∀ x y : Byte, perm (x ^^^ y) = perm x ^^^ perm y) ∧
  (∀ b k : Byte, encryptByte b k = perm b ^^^ perm k) ∧
  (∀ x : Byte, perm (~~~x) = ~~~perm x) ∧
  perm 0x00 = 0x00 ∧ perm 0xFF = 0xFF ∧
  (∀ x : Byte, (positions.filter (fun p => bit (perm x) p == 1)).length =
    (positions.filter (fun p => bit x p == 1)).length) ∧
  (∀ x : Byte, perm^[15] x = x) ∧
  (∀ n, 0 < n → n < 15 → ∃ x : Byte, perm^[n] x ≠ x) ∧
  (∀ x : Byte, perm x = x ↔ x = 0x00 ∨ x = 0x4A ∨ x = 0xB5 ∨ x = 0xFF) ∧
  encryptByte (encryptByte 0x01 0) 0 ≠ 0x01

/-! ## Responses -/

/-- R59, R60: the fields of a response word, and the STATUS codes. -/
def Obligations.ResponseFields : Prop :=
  (∀ (r : Byte) (st : Status) (n : Count),
    rspResult (mkRsp r st n) = r ∧ rspStatus (mkRsp r st n) = st.code ∧
    rspReserved (mkRsp r st n) = 0 ∧ rspCount (mkRsp r st n) = n) ∧
  Status.ok.code = 0b00 ∧ Status.readError.code = 0b01 ∧ Status.writeError.code = 0b10 ∧
  Status.illegalCommand.code = 0b11

/-! ## The commands -/

/-- R76: in IDLE, ENCB responds with the encrypted byte and changes nothing else. -/
def Obligations.EncbResponds : Prop :=
  ∀ (data key : Byte) (s : State), s.st = .idle →
    exec (.encb data key) s =
      .next { s with rspR := mkRsp (encryptByte data key) .ok 0, st := .resp }

/-- R77: in IDLE, DECB responds with the decrypted byte and changes nothing else. -/
def Obligations.DecbResponds : Prop :=
  ∀ (data key : Byte) (s : State), s.st = .idle →
    exec (.decb data key) s =
      .next { s with rspR := mkRsp (decryptByte data key) .ok 0, st := .resp }

/-- The first two sentences of R90: in IDLE, with SRC and SNK apart (R137), ENCS writes KEY_R, MODE_R,
COUNT and `st`, and nothing else. -/
def Obligations.EncsStarts : Prop :=
  ∀ (key : Byte) (s : State), s.st = .idle → s.aliased = false →
    exec (.encs key) s = .next { s with keyR := key, modeR := 0, count := 0, st := .read }

/-- The first sentence of R91: in IDLE, with SRC and SNK apart (R137), DECS writes KEY_R, MODE_R, COUNT and
`st`, and nothing else. -/
def Obligations.DecsStarts : Prop :=
  ∀ (key : Byte) (s : State), s.st = .idle → s.aliased = false →
    exec (.decs key) s = .next { s with keyR := key, modeR := 1, count := 0, st := .read }

/-- R137, I11: a stream command under an aliased binding has no meaning; that it is refused at its
acceptance is the MODEL'S CHOICE (log entry 5). -/
def Obligations.AliasedStreamRefused : Prop :=
  ∀ (key : Byte) (s : State), s.st = .idle → s.aliased = true →
    exec (.encs key) s = .refused .aliasedStreams ∧ exec (.decs key) s = .refused .aliasedStreams

/-- R101: a command is taken in IDLE only. That `exec` of a command answers the same state elsewhere is the
MODEL'S READING (log entry 3, DEDUCED). -/
def Obligations.BusyUnitTakesNoCommand : Prop :=
  ∀ (i : Instr) (s : State), s.st ≠ .idle → exec i s = .next s

/-- R113: an illegal word taken in IDLE completes with ILLEGAL_COMMAND, changes no other register and
issues no stream transaction. -/
def Obligations.IllegalCommandCompletes : Prop :=
  ∀ (s : State) (e : Edge) (es : List Edge) (w : CmdWord) (ws : List CmdWord) (x : IllegalWord),
    s.st = .idle → s.edges = e :: es → e.rst = false → e.cmdValid = true → s.cmds = w :: ws →
    decode w = .error x →
    step s = .next { s with
      rspR := mkRsp 0x00 .illegalCommand 0, st := .resp
      edges := es, cmds := ws, trace := s.trace ++ [.command w] }

/-- R34, R56, R101: in IDLE, the word HOST offers is taken, and the step is its command's meaning, after
the edge has passed, HOST's queue has moved on and the agents have noted the command. -/
def Obligations.StepRunsDecodedCommand : Prop :=
  ∀ (s : State) (e : Edge) (es : List Edge) (w : CmdWord) (ws : List CmdWord) (i : Instr),
    s.st = .idle → s.edges = e :: es → e.rst = false → e.cmdValid = true → s.cmds = w :: ws →
    decode w = .ok i → i.wellFormed = true →
    step s = exec i { s with edges := es, cmds := ws, trace := s.trace ++ [.command w] }

/-! ## The stream engine -/

/-- R92: the step of phase READ for each answer of SRC, and none until SRC answers. -/
def Obligations.ReadPhaseStep : Prop :=
  ∀ (s : State) (e : Edge) (es : List Edge), s.st = .read → s.edges = e :: es → e.rst = false →
    (∀ x xs, e.srcAck = true → s.src = x :: xs →
      (∀ b, x.answer = .byte b → step s = .next { s with
        obuf := xform s.modeR b s.keyR, st := .write
        edges := es, src := xs, trace := s.trace ++ [.read (.byte b)] }) ∧
      (x.answer = .eos → step s = .next { s with
        st := .flush, edges := es, src := xs, trace := s.trace ++ [.read .eos] }) ∧
      (x.answer = .fault → step s = .next { s with
        rspR := mkRsp 0x00 .readError s.count, st := .resp
        edges := es, src := xs, trace := s.trace ++ [.read .fault] })) ∧
    (e.srcAck = false ∨ s.src = [] → step s = .next { s with edges := es })

/-- R93: the step of phase WRITE for each answer of SNK, and none until SNK answers. -/
def Obligations.WritePhaseStep : Prop :=
  ∀ (s : State) (e : Edge) (es : List Edge), s.st = .write → s.edges = e :: es → e.rst = false →
    (∀ xs, e.snkAck = true → s.snk = false :: xs → step s = .next { s with
        count := s.count + 1, st := .read
        edges := es, snk := xs, trace := s.trace ++ [.write s.obuf .ok] }) ∧
    (∀ xs, e.snkAck = true → s.snk = true :: xs → step s = .next { s with
        rspR := mkRsp 0x00 .writeError s.count, st := .resp
        edges := es, snk := xs, trace := s.trace ++ [.write s.obuf .fail] }) ∧
    (e.snkAck = false ∨ s.snk = [] → step s = .next { s with edges := es })

/-- The first four sentences of R94: the step of phase FLUSH for each answer of SNK, and none until SNK
answers. -/
def Obligations.FlushPhaseStep : Prop :=
  ∀ (s : State) (e : Edge) (es : List Edge), s.st = .flush → s.edges = e :: es → e.rst = false →
    (∀ xs, e.snkAck = true → s.snk = false :: xs → step s = .next { s with
        rspR := mkRsp 0x00 .ok s.count, st := .resp
        edges := es, snk := xs, trace := s.trace ++ [.flush .ok] }) ∧
    (∀ xs, e.snkAck = true → s.snk = true :: xs → step s = .next { s with
        rspR := mkRsp 0x00 .writeError s.count, st := .resp
        edges := es, snk := xs, trace := s.trace ++ [.flush .fail] }) ∧
    (e.snkAck = false ∨ s.snk = [] → step s = .next { s with edges := es })

/-- R95: HOST takes the response and the unit goes to IDLE with RSP_R kept; until then, or reset, nothing
moves. -/
def Obligations.ResponseTaken : Prop :=
  ∀ (s : State) (e : Edge) (es : List Edge), s.st = .resp → s.edges = e :: es → e.rst = false →
    (e.rspReady = true → step s = .next { s with
      st := .idle, edges := es, trace := s.trace ++ [.response s.rspR] }) ∧
    (e.rspReady = false → step s = .next { s with edges := es })

/-- R34, R115: SRC's answer by `src_kind`; the reserved code 11 is a fault and `src_data` is read with 00
only. -/
def Obligations.SourceKindDecoded : Prop :=
  ∀ d : Byte,
    SrcSample.answer ⟨0b00, d⟩ = .byte d ∧ SrcSample.answer ⟨0b01, d⟩ = .eos ∧
    SrcSample.answer ⟨0b10, d⟩ = .fault ∧ SrcSample.answer ⟨0b11, d⟩ = .fault

/-! ## Reset -/

/-- R24: the registers after reset. -/
def Obligations.ResetRegisterValues : Prop :=
  State.reset.st = .idle ∧ State.reset.keyR = 0x00 ∧ State.reset.modeR = 0 ∧ State.reset.count = 0 ∧
  State.reset.obuf = 0x00 ∧ State.reset.rspR = 0x0000000000000000

/-- R130, R131, R114: an edge with `rst` = 1 sets every register to its reset value in any phase and
whatever else is offered, and completes no handshake. That the queues of HOST, SRC and SNK are unchanged is
the MODEL'S CHOICE (log entry 13): I13 leaves the counterparts' side of such an edge open. -/
def Obligations.ResetEdgeWins : Prop :=
  ∀ (s : State) (e : Edge) (es : List Edge), s.edges = e :: es → e.rst = true →
    (ports s).cmdReady = false ∧ (ports s).commandDone = false ∧ (ports s).responseDone = false ∧
    (ports s).readDone = false ∧ (ports s).sinkDone = false ∧
    step s = .next { s with
      st := State.reset.st, keyR := State.reset.keyR, modeR := State.reset.modeR
      count := State.reset.count, obuf := State.reset.obuf, rspR := State.reset.rspR
      edges := es, trace := s.trace ++ [.reset] }

/-- R131, I2: a reset edge in a command gives no response and no flush, only its own entry in the history;
what SNK has accepted and SRC has delivered stays, and SNK may have made durable what it might before. That
the session still holds these bytes after the edge is the MODEL'S CHOICE (log entry 16). -/
def Obligations.AbandonedBytesStay : Prop :=
  ∀ s : State, (ports s).rst = true →
    ∃ t, step s = .next t ∧ t.st = .idle ∧ t.trace = s.trace ++ [.reset] ∧ t.output = s.output ∧
      t.session.command = none ∧ t.session.accepted = s.session.accepted ∧
      t.session.delivered = s.session.delivered ∧
      (∀ kept, Durable t.session kept ↔ Durable s.session kept)

/-! ## Ports -/

/-- The output rows of the table of R34. -/
def Obligations.OutputWires : Prop :=
  ∀ s : State,
    ((ports s).cmdReady = true ↔ s.st = .idle ∧ (ports s).rst = false) ∧
    ((ports s).rspValid = true ↔ s.st = .resp) ∧
    (ports s).rspWord = s.rspR ∧
    ((ports s).srcReq = true ↔ s.st = .read) ∧
    ((ports s).snkReq = true ↔ s.st = .write ∨ s.st = .flush) ∧
    ((ports s).snkOp = true ↔ s.st = .flush) ∧
    ((ports s).snkOp = false → (ports s).snkData = s.obuf) ∧
    ((ports s).snkOp = true → (ports s).snkData = 0x00)

/-- Two clauses. First, the last sentences of `20_memory.md` section 3 (under R34), which the spec marks as
derived: at most one handshake completes at an edge. Second, where none does and `rst` = 0, the edge passes and
nothing else changes: this is the MODEL'S READING and no sentence of the spec (log entry 2, DEDUCED). -/
def Obligations.AtMostOneHandshake : Prop :=
  ∀ s : State,
    ([(ports s).commandDone, (ports s).responseDone, (ports s).readDone, (ports s).sinkDone].countP id
      ≤ 1) ∧
    ((ports s).rst = false → (ports s).commandDone = false → (ports s).responseDone = false →
      (ports s).readDone = false → (ports s).sinkDone = false →
      step s = .next { s with edges := s.edges.tail })

/-! ## Rules over every step -/

/-- R110, R118, and R137 for the refusal: a step never faults (log entry 15), and it is refused where the
command handshake of a stream command completes in IDLE under an aliased binding, and nowhere else. That this
acceptance is the refused step is the MODEL'S CHOICE (log entry 5). -/
def Obligations.StepCompletesOrAliased : Prop :=
  ∀ s : State,
    ((∃ s', step s = .next s') ∨
      (step s = .refused .aliasedStreams ∧ s.aliased = true ∧ s.st = .idle ∧
        (ports s).commandDone = true ∧
        ∃ w ws m k, s.cmds = w :: ws ∧ w = encode (streamInstr m k))) ∧
    (∀ m k, s.aliased = true → (ports s).commandDone = true →
      (ports s).cmdWord = encode (streamInstr m k) → step s = .refused .aliasedStreams)

/-- R11: every step keeps the phase, takes one of the nine transitions, or is a reset to IDLE. -/
def Obligations.PhaseTransitions : Prop :=
  ∀ s s' : State, step s = .next s' →
    s'.st = s.st ∨ phaseStep s.st s'.st = true ∨ ((ports s).rst = true ∧ s'.st = .idle)

/-- R17, R18: KEY_R and MODE_R change only at a reset edge and at the acceptance, in IDLE, of the stream
command whose key and mode they become. -/
def Obligations.KeyAndModeWriters : Prop :=
  ∀ s s' : State, step s = .next s' → (ports s).rst = false →
    (s'.keyR = s.keyR ∧ s'.modeR = s.modeR) ∨
    (s.st = .idle ∧ s'.st = .read ∧
      s'.trace = s.trace ++ [.command (encode (streamInstr s'.modeR s'.keyR))])

/-- R20: COUNT is set to 0 by the acceptance of a stream command, grows by one (modulo 2^48) with each
accepted write, and apart from reset nothing else writes it. -/
def Obligations.CountWriters : Prop :=
  ∀ s s' : State, step s = .next s' → (ports s).rst = false →
    (s.st = .idle → s'.st = .read → s'.count = 0) ∧
    (∀ b, s'.trace = s.trace ++ [.write b .ok] →
      s'.count.toNat = (s.count.toNat + 1) % 2 ^ 48) ∧
    (¬ (s.st = .idle ∧ s'.st = .read) → (∀ b, s'.trace ≠ s.trace ++ [.write b .ok]) →
      s'.count = s.count)

/-- R19, R21: apart from reset, RSP_R changes only when the unit enters RESP and OBUF only when SRC answers
a read with a byte. -/
def Obligations.ResponseAndBufferWriters : Prop :=
  ∀ s s' : State, step s = .next s' → (ports s).rst = false →
    (s'.rspR = s.rspR ∨ (s.st ≠ .resp ∧ s'.st = .resp)) ∧
    (s'.obuf = s.obuf ∨ ∃ b, s.st = .read ∧ s'.st = .write ∧
      s'.trace = s.trace ++ [.read (.byte b)] ∧ s'.obuf = xform s.modeR b s.keyR)

/-- R101: no command is dropped or queued: HOST's commands leave its queue one at a time, in IDLE, each
by being accepted. -/
def Obligations.CommandsWaitUnconsumed : Prop :=
  ∀ s s' : State, step s = .next s' →
    (s'.cmds = s.cmds ∧ ∀ w, s'.trace ≠ s.trace ++ [.command w]) ∨
    (s.st = .idle ∧ (ports s).rst = false ∧
      ∃ w ws, s.cmds = w :: ws ∧ s'.cmds = ws ∧ s'.trace = s.trace ++ [.command w])

/-- R135: after acceptance, what stands on the command port makes no difference to any step. -/
def Obligations.RunningCommandIgnoresPort : Prop :=
  ∀ (s : State) (ws : List CmdWord), s.st ≠ .idle →
    ∃ s', step s = .next s' ∧ step { s with cmds := ws } = .next { s' with cmds := ws }

/-- R140: in an orderly history a command's run is under way exactly outside IDLE; it ends by HOST taking the
response, the step from RESP to IDLE, and by nothing else; a reset abandons it, and it has then not ended. The
run is read from the record of transactions, which is the MODEL'S own (log entry 4). -/
def Obligations.RunEndsByResponseTaken : Prop :=
  ∀ s s' : State, Orderly s → step s = .next s' →
    (s.lastRun = .running ↔ s.st ≠ .idle) ∧
    (s.st ≠ .idle → ended s = false) ∧
    (s.st = .resp → s'.trace = s.trace ++ [.response s.rspR] → s'.st = .idle ∧ ended s' = true) ∧
    (ended s' = true → ended s = true ∨
      (s.st = .resp ∧ s'.st = .idle ∧ s'.trace = s.trace ++ [.response s.rspR])) ∧
    (s.lastRun = .running → (ports s).rst = true →
      s'.st = .idle ∧ s'.lastRun = .abandoned ∧ ended s' = false)

/-! ## Hangs -/

/-- R134: a HOST that never takes the response waits for ever: the unit stays in RESP and takes none of the
commands HOST offers. -/
def Obligations.HostDeadlocks : Prop :=
  ∀ (n : Nat) (s : State), s.st = .resp → undisturbed s.edges = true →
    ∃ t, steps n s = .next t ∧ t.st = .resp ∧ ended t = false ∧ t.cmds = s.cmds ∧ t.rspR = s.rspR ∧
      t.trace = s.trace

/-- R136: while SRC, in READ, or SNK, in WRITE and FLUSH, does not answer and no reset comes, the unit
waits for any number of edges. -/
def Obligations.StallsHaveNoBound : Prop :=
  ∀ (n : Nat) (s : State), (∀ e ∈ s.edges, e.rst = false) →
    ((s.st = .read ∧ (s.src = [] ∨ ∀ e ∈ s.edges, e.srcAck = false)) ∨
      ((s.st = .write ∨ s.st = .flush) ∧ (s.snk = [] ∨ ∀ e ∈ s.edges, e.snkAck = false))) →
    steps n s = .next { s with edges := s.edges.drop n }

/-! ## Invariants -/

/-- R24: IDLE is the phase of an empty history. That the history is empty at reset is the MODEL'S CHOICE (log
entry 4). -/
def Obligations.OrderlyAtReset : Prop := Orderly State.reset

/-- R41, R59, R98, R101: every step keeps the history a legal order of transactions: strict alternation of
reads and writes, one flush after Eos only, nothing after Fault or Fail but one response, no command while
one runs. -/
def Obligations.OrderlyKept : Prop :=
  ∀ s s' : State, Orderly s → step s = .next s' → Orderly s'

/-- R24: IDLE asks nothing of the registers. That nothing has been observed at reset is the MODEL'S CHOICE (log
entry 4). -/
def Obligations.FaithfulAtReset : Prop := Faithful State.reset

/-- R20, R21, R42, R92 to R94, R99, R100: every step keeps the registers in agreement with what the agents
observed, whatever SRC and SNK answer and whenever: the accepted bytes are the transforms of the delivered
ones in order, COUNT is their number modulo 2^48, and each response is the one its command must have. -/
def Obligations.FaithfulKept : Prop :=
  ∀ s s' : State, Faithful s → step s = .next s' → Faithful s'

/-- R100, R111, R112 (the spec marks them as derived): of a finished stream command in a faithful state, the
response tells how many bytes SNK accepted and which, and SNK can have made durable no others (I2; `Durable` is
log entry 9, DEDUCED). -/
def Obligations.PartialOutcome : Prop :=
  ∀ (s : State) (m : BitVec 1) (k : Byte), Faithful s → s.st = .resp →
    s.session.command = some (encode (streamInstr m k)) →
    let c := s.session
    rspResult s.rspR = 0x00 ∧ rspCount s.rspR = BitVec.ofNat 48 c.accepted.length ∧
    c.accepted = (c.delivered.take c.accepted.length).map (fun b => xform m b k) ∧
    (rspStatus s.rspR = 0b00 ↔ c.flushed = some .ok) ∧
    (rspStatus s.rspR = 0b01 ↔ c.sourceEnd = some .fault) ∧
    (rspStatus s.rspR = 0b10 ↔ (∃ b, c.rejected = some b) ∨ c.flushed = some .fail) ∧
    (rspStatus s.rspR ≠ 0b10 → c.accepted.length = c.delivered.length) ∧
    (∀ kept, Durable c kept → kept.length ≤ c.accepted.length ∧
      kept = (c.delivered.take kept.length).map (fun b => xform m b k))

/-! ## Whole stream commands -/

/-- R98: from the first read on, with any delays, as long as SRC and SNK keep answering and neither a reset
nor HOST comes in between, the engine performs exactly the transactions of the loop of R98, which the spec
marks as a derived view, and offers its response. -/
def Obligations.EngineRunsTheLoop : Prop :=
  ∀ (s : State) (ts : List Txn) (w : RspWord),
    s.st = .read → undisturbed s.edges = true →
    streamCommand s.modeR s.keyR s.count (s.src.map SrcSample.answer) (s.snk.map snkAnswer)
      = (ts, some w) →
    ts.length ≤ answering s.edges →
    ∃ t, steps s.edges.length s = .next t ∧ t.st = .resp ∧ t.rspR = w ∧ t.trace = s.trace ++ ts

/-- R98 (the spec marks its loop as a derived view), R136: at no time has the engine performed anything but a
first part of the loop's transactions, whatever the delays. Where the loop ends, the unit is in RESP exactly when
all are performed, and what it then offers is the loop's response; where SRC or SNK stops answering before that
(`w` = none), it is never in RESP. It is never in IDLE. -/
def Obligations.EngineNeverLeavesTheLoop : Prop :=
  ∀ (n : Nat) (s : State) (ts : List Txn) (w : Option RspWord),
    s.st = .read → undisturbed s.edges = true →
    streamCommand s.modeR s.keyR s.count (s.src.map SrcSample.answer) (s.snk.map snkAnswer)
      = (ts, w) →
    ∃ t j, steps n s = .next t ∧ t.trace = s.trace ++ ts.take j ∧
      (t.st = .resp ↔ ts.length ≤ j ∧ w.isSome) ∧ (t.st = .resp → w = some t.rspR) ∧ t.st ≠ .idle

/-- R99, R41 (the spec marks R99 as derived): where SRC delivers a finite stream and SNK accepts everything,
the command writes exactly the transforms in order, flushes once, and reports OK with the stream's length
modulo 2^48; a stream of any length, the empty one (R97) too. -/
def Obligations.StreamSucceeds : Prop :=
  ∀ (mode : BitVec 1) (key : Byte) (input : List Byte) (s : State), ReadyFor mode key input s →
    ∃ t, steps s.edges.length s = .next t ∧ t.st = .resp ∧
      t.rspR = mkRsp 0x00 .ok (BitVec.ofNat 48 input.length) ∧
      t.trace = s.trace ++ streamTrace mode key input ∧
      t.output = s.output ++ input.map (fun b => xform mode b key)

/-- R102 (the spec marks it as derived): decrypting what an encryption wrote, with the same key, writes the
original input, and both responses report the same COUNT. -/
def Obligations.StreamRoundTrip : Prop :=
  ∀ (key : Byte) (input : List Byte) (s s' t : State),
    ReadyFor 0 key input s → steps s.edges.length s = .next s' →
    ReadyFor 1 key (s'.output.drop s.output.length) t →
    ∃ t', steps t.edges.length t = .next t' ∧ t'.output = t.output ++ input ∧
      rspStatus t'.rspR = 0b00 ∧ rspCount t'.rspR = rspCount s'.rspR

/-- R123, R138: contiguous chunks of a stream, each on a unit of its own under the same mode and key, all
succeed, and their outputs in stream order are the output of one unit over the whole stream. -/
def Obligations.ShardingAgrees : Prop :=
  ∀ (mode : BitVec 1) (key : Byte) (chunks : List (List Byte)) (units : List State) (whole : State),
    List.Forall₂ (ReadyFor mode key) chunks units → ReadyFor mode key chunks.flatten whole →
    ∃ (units' : List State) (whole' : State),
      List.Forall₂ (fun u u' => steps u.edges.length u = .next u') units units' ∧
      steps whole.edges.length whole = .next whole' ∧
      (∀ u' ∈ units', u'.st = .resp ∧ rspStatus u'.rspR = 0b00) ∧
      (List.zipWith (fun u u' => u'.output.drop u.output.length) units units').flatten =
        whole'.output.drop whole.output.length

/-! ## What cannot be observed, and several units -/

/-- R24, R139 (the spec marks both as derived): from IDLE, the values left in KEY_R, MODE_R, COUNT, OBUF and
RSP_R, by reset or by the last command, make no difference HOST, SRC or SNK ever sees. -/
def Obligations.OldRegistersUnobservable : Prop :=
  ∀ (n : Nat) (s : State) (k : Byte) (m : BitVec 1) (c : Count) (o : Byte) (r : RspWord),
    s.st = .idle → sameToAgents (steps n s) (steps n (s.withRegisters k m c o r))

/-- R45, R123: a step of one unit moves no other unit. -/
def Obligations.UnitsShareNothing : Prop :=
  ∀ (sys sys' : System) (k : Nat), sys.stepUnit k = .next sys' →
    sys'.units.length = sys.units.length ∧
    (∀ j, j ≠ k → sys'.units[j]? = sys.units[j]?) ∧
    (∀ u, sys.units[k]? = some u → ∃ u', step u = .next u' ∧ sys'.units[k]? = some u')

/-- R45, R123: the order in which two units step makes no difference. That one unit steps at a time, and that a
refused unit refuses the system's step, is the MODEL'S CHOICE (log entry 8). -/
def Obligations.UnitStepsCommute : Prop :=
  ∀ (sys out : System) (j k : Nat), j ≠ k → (sys.run [j, k] = .next out ↔ sys.run [k, j] = .next out)

/-- R6, R24, R123: a system of `NUM_UNITS` units starts with each of them as reset leaves it. -/
def Obligations.SystemResetEachUnit : Prop :=
  ∀ n : Nat, Config.unitsAllowed n = true →
    (System.reset n).units.length = n ∧ ∀ k, k < n → (System.reset n).units[k]? = some State.reset
end

