-- ==== Sys2Proof/Laws/State.lean ====
section
/-! SUPPORT. One lemma per field and per update of the state, so that no proof unfolds a record update. -/

namespace Sys2Proof.Machine

/-! ### `State.respond` -/

@[simp] theorem State.respond_st (s : State) (w : RspWord) :
    (s.respond w).st = .resp := rfl
@[simp] theorem State.respond_keyR (s : State) (w : RspWord) :
    (s.respond w).keyR = s.keyR := rfl
@[simp] theorem State.respond_modeR (s : State) (w : RspWord) :
    (s.respond w).modeR = s.modeR := rfl
@[simp] theorem State.respond_count (s : State) (w : RspWord) :
    (s.respond w).count = s.count := rfl
@[simp] theorem State.respond_obuf (s : State) (w : RspWord) :
    (s.respond w).obuf = s.obuf := rfl
@[simp] theorem State.respond_rspR (s : State) (w : RspWord) :
    (s.respond w).rspR = w := rfl
@[simp] theorem State.respond_edges (s : State) (w : RspWord) :
    (s.respond w).edges = s.edges := rfl
@[simp] theorem State.respond_cmds (s : State) (w : RspWord) :
    (s.respond w).cmds = s.cmds := rfl
@[simp] theorem State.respond_src (s : State) (w : RspWord) :
    (s.respond w).src = s.src := rfl
@[simp] theorem State.respond_snk (s : State) (w : RspWord) :
    (s.respond w).snk = s.snk := rfl
@[simp] theorem State.respond_aliased (s : State) (w : RspWord) :
    (s.respond w).aliased = s.aliased := rfl
@[simp] theorem State.respond_trace (s : State) (w : RspWord) :
    (s.respond w).trace = s.trace := rfl

/-! ### `State.raiseError` -/

@[simp] theorem State.raiseError_st (s : State) (e : Status) (n : Count) :
    (s.raiseError e n).st = .resp := rfl
@[simp] theorem State.raiseError_keyR (s : State) (e : Status) (n : Count) :
    (s.raiseError e n).keyR = s.keyR := rfl
@[simp] theorem State.raiseError_modeR (s : State) (e : Status) (n : Count) :
    (s.raiseError e n).modeR = s.modeR := rfl
@[simp] theorem State.raiseError_count (s : State) (e : Status) (n : Count) :
    (s.raiseError e n).count = s.count := rfl
@[simp] theorem State.raiseError_obuf (s : State) (e : Status) (n : Count) :
    (s.raiseError e n).obuf = s.obuf := rfl
@[simp] theorem State.raiseError_rspR (s : State) (e : Status) (n : Count) :
    (s.raiseError e n).rspR = mkRsp 0x00 e n := rfl
@[simp] theorem State.raiseError_edges (s : State) (e : Status) (n : Count) :
    (s.raiseError e n).edges = s.edges := rfl
@[simp] theorem State.raiseError_cmds (s : State) (e : Status) (n : Count) :
    (s.raiseError e n).cmds = s.cmds := rfl
@[simp] theorem State.raiseError_src (s : State) (e : Status) (n : Count) :
    (s.raiseError e n).src = s.src := rfl
@[simp] theorem State.raiseError_snk (s : State) (e : Status) (n : Count) :
    (s.raiseError e n).snk = s.snk := rfl
@[simp] theorem State.raiseError_aliased (s : State) (e : Status) (n : Count) :
    (s.raiseError e n).aliased = s.aliased := rfl
@[simp] theorem State.raiseError_trace (s : State) (e : Status) (n : Count) :
    (s.raiseError e n).trace = s.trace := rfl

/-! ### `State.takeResponse` -/

@[simp] theorem State.takeResponse_st (s : State) :
    (s.takeResponse).st = .idle := rfl
@[simp] theorem State.takeResponse_keyR (s : State) :
    (s.takeResponse).keyR = s.keyR := rfl
@[simp] theorem State.takeResponse_modeR (s : State) :
    (s.takeResponse).modeR = s.modeR := rfl
@[simp] theorem State.takeResponse_count (s : State) :
    (s.takeResponse).count = s.count := rfl
@[simp] theorem State.takeResponse_obuf (s : State) :
    (s.takeResponse).obuf = s.obuf := rfl
@[simp] theorem State.takeResponse_rspR (s : State) :
    (s.takeResponse).rspR = s.rspR := rfl
@[simp] theorem State.takeResponse_edges (s : State) :
    (s.takeResponse).edges = s.edges := rfl
@[simp] theorem State.takeResponse_cmds (s : State) :
    (s.takeResponse).cmds = s.cmds := rfl
@[simp] theorem State.takeResponse_src (s : State) :
    (s.takeResponse).src = s.src := rfl
@[simp] theorem State.takeResponse_snk (s : State) :
    (s.takeResponse).snk = s.snk := rfl
@[simp] theorem State.takeResponse_aliased (s : State) :
    (s.takeResponse).aliased = s.aliased := rfl
@[simp] theorem State.takeResponse_trace (s : State) :
    (s.takeResponse).trace = s.trace := rfl

/-! ### `State.startStream` -/

@[simp] theorem State.startStream_st (s : State) (m : BitVec 1) (k : Byte) :
    (s.startStream m k).st = .read := rfl
@[simp] theorem State.startStream_keyR (s : State) (m : BitVec 1) (k : Byte) :
    (s.startStream m k).keyR = k := rfl
@[simp] theorem State.startStream_modeR (s : State) (m : BitVec 1) (k : Byte) :
    (s.startStream m k).modeR = m := rfl
@[simp] theorem State.startStream_count (s : State) (m : BitVec 1) (k : Byte) :
    (s.startStream m k).count = 0 := rfl
@[simp] theorem State.startStream_obuf (s : State) (m : BitVec 1) (k : Byte) :
    (s.startStream m k).obuf = s.obuf := rfl
@[simp] theorem State.startStream_rspR (s : State) (m : BitVec 1) (k : Byte) :
    (s.startStream m k).rspR = s.rspR := rfl
@[simp] theorem State.startStream_edges (s : State) (m : BitVec 1) (k : Byte) :
    (s.startStream m k).edges = s.edges := rfl
@[simp] theorem State.startStream_cmds (s : State) (m : BitVec 1) (k : Byte) :
    (s.startStream m k).cmds = s.cmds := rfl
@[simp] theorem State.startStream_src (s : State) (m : BitVec 1) (k : Byte) :
    (s.startStream m k).src = s.src := rfl
@[simp] theorem State.startStream_snk (s : State) (m : BitVec 1) (k : Byte) :
    (s.startStream m k).snk = s.snk := rfl
@[simp] theorem State.startStream_aliased (s : State) (m : BitVec 1) (k : Byte) :
    (s.startStream m k).aliased = s.aliased := rfl
@[simp] theorem State.startStream_trace (s : State) (m : BitVec 1) (k : Byte) :
    (s.startStream m k).trace = s.trace := rfl

/-! ### `State.illegalCommand` -/

@[simp] theorem State.illegalCommand_st (s : State) :
    (s.illegalCommand).st = .resp := rfl
@[simp] theorem State.illegalCommand_keyR (s : State) :
    (s.illegalCommand).keyR = s.keyR := rfl
@[simp] theorem State.illegalCommand_modeR (s : State) :
    (s.illegalCommand).modeR = s.modeR := rfl
@[simp] theorem State.illegalCommand_count (s : State) :
    (s.illegalCommand).count = s.count := rfl
@[simp] theorem State.illegalCommand_obuf (s : State) :
    (s.illegalCommand).obuf = s.obuf := rfl
@[simp] theorem State.illegalCommand_rspR (s : State) :
    (s.illegalCommand).rspR = mkRsp 0x00 .illegalCommand 0 := rfl
@[simp] theorem State.illegalCommand_edges (s : State) :
    (s.illegalCommand).edges = s.edges := rfl
@[simp] theorem State.illegalCommand_cmds (s : State) :
    (s.illegalCommand).cmds = s.cmds := rfl
@[simp] theorem State.illegalCommand_src (s : State) :
    (s.illegalCommand).src = s.src := rfl
@[simp] theorem State.illegalCommand_snk (s : State) :
    (s.illegalCommand).snk = s.snk := rfl
@[simp] theorem State.illegalCommand_aliased (s : State) :
    (s.illegalCommand).aliased = s.aliased := rfl
@[simp] theorem State.illegalCommand_trace (s : State) :
    (s.illegalCommand).trace = s.trace := rfl

/-! ### `State.unitReset` -/

@[simp] theorem State.unitReset_st (s : State) :
    (s.unitReset).st = .idle := rfl
@[simp] theorem State.unitReset_keyR (s : State) :
    (s.unitReset).keyR = 0x00 := rfl
@[simp] theorem State.unitReset_modeR (s : State) :
    (s.unitReset).modeR = 0 := rfl
@[simp] theorem State.unitReset_count (s : State) :
    (s.unitReset).count = 0 := rfl
@[simp] theorem State.unitReset_obuf (s : State) :
    (s.unitReset).obuf = 0x00 := rfl
@[simp] theorem State.unitReset_rspR (s : State) :
    (s.unitReset).rspR = 0x0000000000000000 := rfl
@[simp] theorem State.unitReset_edges (s : State) :
    (s.unitReset).edges = s.edges := rfl
@[simp] theorem State.unitReset_cmds (s : State) :
    (s.unitReset).cmds = s.cmds := rfl
@[simp] theorem State.unitReset_src (s : State) :
    (s.unitReset).src = s.src := rfl
@[simp] theorem State.unitReset_snk (s : State) :
    (s.unitReset).snk = s.snk := rfl
@[simp] theorem State.unitReset_aliased (s : State) :
    (s.unitReset).aliased = s.aliased := rfl
@[simp] theorem State.unitReset_trace (s : State) :
    (s.unitReset).trace = s.trace := rfl

/-! ### `State.record` -/

@[simp] theorem State.record_st (s : State) (t : Txn) :
    (s.record t).st = s.st := rfl
@[simp] theorem State.record_keyR (s : State) (t : Txn) :
    (s.record t).keyR = s.keyR := rfl
@[simp] theorem State.record_modeR (s : State) (t : Txn) :
    (s.record t).modeR = s.modeR := rfl
@[simp] theorem State.record_count (s : State) (t : Txn) :
    (s.record t).count = s.count := rfl
@[simp] theorem State.record_obuf (s : State) (t : Txn) :
    (s.record t).obuf = s.obuf := rfl
@[simp] theorem State.record_rspR (s : State) (t : Txn) :
    (s.record t).rspR = s.rspR := rfl
@[simp] theorem State.record_edges (s : State) (t : Txn) :
    (s.record t).edges = s.edges := rfl
@[simp] theorem State.record_cmds (s : State) (t : Txn) :
    (s.record t).cmds = s.cmds := rfl
@[simp] theorem State.record_src (s : State) (t : Txn) :
    (s.record t).src = s.src := rfl
@[simp] theorem State.record_snk (s : State) (t : Txn) :
    (s.record t).snk = s.snk := rfl
@[simp] theorem State.record_aliased (s : State) (t : Txn) :
    (s.record t).aliased = s.aliased := rfl
@[simp] theorem State.record_trace (s : State) (t : Txn) :
    (s.record t).trace = s.trace ++ [t] := rfl

/-! ### `State.passEdge` -/

@[simp] theorem State.passEdge_st (s : State) :
    (s.passEdge).st = s.st := rfl
@[simp] theorem State.passEdge_keyR (s : State) :
    (s.passEdge).keyR = s.keyR := rfl
@[simp] theorem State.passEdge_modeR (s : State) :
    (s.passEdge).modeR = s.modeR := rfl
@[simp] theorem State.passEdge_count (s : State) :
    (s.passEdge).count = s.count := rfl
@[simp] theorem State.passEdge_obuf (s : State) :
    (s.passEdge).obuf = s.obuf := rfl
@[simp] theorem State.passEdge_rspR (s : State) :
    (s.passEdge).rspR = s.rspR := rfl
@[simp] theorem State.passEdge_edges (s : State) :
    (s.passEdge).edges = s.edges.tail := rfl
@[simp] theorem State.passEdge_cmds (s : State) :
    (s.passEdge).cmds = s.cmds := rfl
@[simp] theorem State.passEdge_src (s : State) :
    (s.passEdge).src = s.src := rfl
@[simp] theorem State.passEdge_snk (s : State) :
    (s.passEdge).snk = s.snk := rfl
@[simp] theorem State.passEdge_aliased (s : State) :
    (s.passEdge).aliased = s.aliased := rfl
@[simp] theorem State.passEdge_trace (s : State) :
    (s.passEdge).trace = s.trace := rfl

/-! ### `State.popCmd` -/

@[simp] theorem State.popCmd_st (s : State) :
    (s.popCmd).st = s.st := rfl
@[simp] theorem State.popCmd_keyR (s : State) :
    (s.popCmd).keyR = s.keyR := rfl
@[simp] theorem State.popCmd_modeR (s : State) :
    (s.popCmd).modeR = s.modeR := rfl
@[simp] theorem State.popCmd_count (s : State) :
    (s.popCmd).count = s.count := rfl
@[simp] theorem State.popCmd_obuf (s : State) :
    (s.popCmd).obuf = s.obuf := rfl
@[simp] theorem State.popCmd_rspR (s : State) :
    (s.popCmd).rspR = s.rspR := rfl
@[simp] theorem State.popCmd_edges (s : State) :
    (s.popCmd).edges = s.edges := rfl
@[simp] theorem State.popCmd_cmds (s : State) :
    (s.popCmd).cmds = s.cmds.tail := rfl
@[simp] theorem State.popCmd_src (s : State) :
    (s.popCmd).src = s.src := rfl
@[simp] theorem State.popCmd_snk (s : State) :
    (s.popCmd).snk = s.snk := rfl
@[simp] theorem State.popCmd_aliased (s : State) :
    (s.popCmd).aliased = s.aliased := rfl
@[simp] theorem State.popCmd_trace (s : State) :
    (s.popCmd).trace = s.trace := rfl

/-! ### `State.popSrc` -/

@[simp] theorem State.popSrc_st (s : State) :
    (s.popSrc).st = s.st := rfl
@[simp] theorem State.popSrc_keyR (s : State) :
    (s.popSrc).keyR = s.keyR := rfl
@[simp] theorem State.popSrc_modeR (s : State) :
    (s.popSrc).modeR = s.modeR := rfl
@[simp] theorem State.popSrc_count (s : State) :
    (s.popSrc).count = s.count := rfl
@[simp] theorem State.popSrc_obuf (s : State) :
    (s.popSrc).obuf = s.obuf := rfl
@[simp] theorem State.popSrc_rspR (s : State) :
    (s.popSrc).rspR = s.rspR := rfl
@[simp] theorem State.popSrc_edges (s : State) :
    (s.popSrc).edges = s.edges := rfl
@[simp] theorem State.popSrc_cmds (s : State) :
    (s.popSrc).cmds = s.cmds := rfl
@[simp] theorem State.popSrc_src (s : State) :
    (s.popSrc).src = s.src.tail := rfl
@[simp] theorem State.popSrc_snk (s : State) :
    (s.popSrc).snk = s.snk := rfl
@[simp] theorem State.popSrc_aliased (s : State) :
    (s.popSrc).aliased = s.aliased := rfl
@[simp] theorem State.popSrc_trace (s : State) :
    (s.popSrc).trace = s.trace := rfl

/-! ### `State.popSnk` -/

@[simp] theorem State.popSnk_st (s : State) :
    (s.popSnk).st = s.st := rfl
@[simp] theorem State.popSnk_keyR (s : State) :
    (s.popSnk).keyR = s.keyR := rfl
@[simp] theorem State.popSnk_modeR (s : State) :
    (s.popSnk).modeR = s.modeR := rfl
@[simp] theorem State.popSnk_count (s : State) :
    (s.popSnk).count = s.count := rfl
@[simp] theorem State.popSnk_obuf (s : State) :
    (s.popSnk).obuf = s.obuf := rfl
@[simp] theorem State.popSnk_rspR (s : State) :
    (s.popSnk).rspR = s.rspR := rfl
@[simp] theorem State.popSnk_edges (s : State) :
    (s.popSnk).edges = s.edges := rfl
@[simp] theorem State.popSnk_cmds (s : State) :
    (s.popSnk).cmds = s.cmds := rfl
@[simp] theorem State.popSnk_src (s : State) :
    (s.popSnk).src = s.src := rfl
@[simp] theorem State.popSnk_snk (s : State) :
    (s.popSnk).snk = s.snk.tail := rfl
@[simp] theorem State.popSnk_aliased (s : State) :
    (s.popSnk).aliased = s.aliased := rfl
@[simp] theorem State.popSnk_trace (s : State) :
    (s.popSnk).trace = s.trace := rfl

/-! ### `State.offerCommand` -/

@[simp] theorem State.offerCommand_st (s : State) (w : CmdWord) :
    (s.offerCommand w).st = .idle := rfl
@[simp] theorem State.offerCommand_keyR (s : State) (w : CmdWord) :
    (s.offerCommand w).keyR = s.keyR := rfl
@[simp] theorem State.offerCommand_modeR (s : State) (w : CmdWord) :
    (s.offerCommand w).modeR = s.modeR := rfl
@[simp] theorem State.offerCommand_count (s : State) (w : CmdWord) :
    (s.offerCommand w).count = s.count := rfl
@[simp] theorem State.offerCommand_obuf (s : State) (w : CmdWord) :
    (s.offerCommand w).obuf = s.obuf := rfl
@[simp] theorem State.offerCommand_rspR (s : State) (w : CmdWord) :
    (s.offerCommand w).rspR = s.rspR := rfl
@[simp] theorem State.offerCommand_edges (s : State) (w : CmdWord) :
    (s.offerCommand w).edges = { Edge.quiet with cmdValid := true } :: s.edges := rfl
@[simp] theorem State.offerCommand_cmds (s : State) (w : CmdWord) :
    (s.offerCommand w).cmds = w :: s.cmds := rfl
@[simp] theorem State.offerCommand_src (s : State) (w : CmdWord) :
    (s.offerCommand w).src = s.src := rfl
@[simp] theorem State.offerCommand_snk (s : State) (w : CmdWord) :
    (s.offerCommand w).snk = s.snk := rfl
@[simp] theorem State.offerCommand_aliased (s : State) (w : CmdWord) :
    (s.offerCommand w).aliased = s.aliased := rfl
@[simp] theorem State.offerCommand_trace (s : State) (w : CmdWord) :
    (s.offerCommand w).trace = s.trace := rfl

end Sys2Proof.Machine
end

