-- ==== Sys2Proof/Laws/Ops.lean ====
section
/-! SUPPORT. What each shared operation can do, said once. -/

namespace Sys2Proof.Machine

/-! ## Guards -/

/-- In IDLE a guarded command runs. -/
@[simp] theorem State.whenIdle_idle {s : State} (h : s.st = .idle)
    (o : Host.Outcome State Fault Refusal) : s.whenIdle o = o := by
  simp [State.whenIdle, h]

/-- Outside IDLE a guarded command changes nothing. -/
theorem State.whenIdle_busy {s : State} (h : s.st ≠ .idle) (o : Host.Outcome State Fault Refusal) :
    s.whenIdle o = .next s := by
  unfold State.whenIdle
  split <;> first | rfl | contradiction

/-- All a guarded command can do. -/
theorem State.whenIdle_cases (s : State) (o : Host.Outcome State Fault Refusal) :
    (s.st = .idle ∧ s.whenIdle o = o) ∨ (s.st ≠ .idle ∧ s.whenIdle o = .next s) := by
  by_cases h : s.st = .idle
  · exact .inl ⟨h, State.whenIdle_idle h o⟩
  · exact .inr ⟨h, State.whenIdle_busy h o⟩

/-- With SRC and SNK apart the binding is no obstacle. -/
@[simp] theorem State.unlessAliased_apart {s : State} (h : s.aliased = false)
    (o : Host.Outcome State Fault Refusal) : s.unlessAliased o = o := by
  simp [State.unlessAliased, h]

/-- An aliased binding is refused, whatever was to be done. -/
@[simp] theorem State.unlessAliased_aliased {s : State} (h : s.aliased = true)
    (o : Host.Outcome State Fault Refusal) : s.unlessAliased o = .refused .aliasedStreams := by
  simp [State.unlessAliased, h]

/-! ## The engine's steps, one lemma per answer -/

@[simp] theorem State.onRead_byte (s : State) (b : Byte) :
    s.onRead (.byte b) = { s with obuf := xform s.modeR b s.keyR, st := .write } := rfl
@[simp] theorem State.onRead_eos (s : State) : s.onRead .eos = { s with st := .flush } := rfl
@[simp] theorem State.onRead_fault (s : State) :
    s.onRead .fault = s.raiseError .readError s.count := rfl
@[simp] theorem State.onWrite_ok (s : State) :
    s.onWrite .ok = { s with count := s.count + 1, st := .read } := rfl
@[simp] theorem State.onWrite_fail (s : State) :
    s.onWrite .fail = s.raiseError .writeError s.count := rfl
@[simp] theorem State.onFlush_ok (s : State) :
    s.onFlush .ok = s.respond (mkRsp 0x00 .ok s.count) := rfl
@[simp] theorem State.onFlush_fail (s : State) :
    s.onFlush .fail = s.raiseError .writeError s.count := rfl

/-- The phase after SRC's answer: WRITE, FLUSH or RESP. -/
theorem State.onRead_st (s : State) (a : SrcAnswer) :
    (s.onRead a).st = .write ∨ (s.onRead a).st = .flush ∨ (s.onRead a).st = .resp := by
  cases a <;> simp

/-- The phase after SNK's answer to a write: READ or RESP. -/
theorem State.onWrite_st (s : State) (r : SnkAnswer) :
    (s.onWrite r).st = .read ∨ (s.onWrite r).st = .resp := by
  cases r <;> simp

/-- The phase after SNK's answer to the flush: RESP. -/
theorem State.onFlush_st (s : State) (r : SnkAnswer) : (s.onFlush r).st = .resp := by
  cases r <;> simp

/-! ## The loop, one lemma per answer -/

section Loop
variable (m : BitVec 1) (k : Byte) (n : Count) (b : Byte) (rs : List SrcAnswer) (ws : List SnkAnswer)

@[simp] theorem streamCommand_no_source : streamCommand m k n [] ws = ([], none) := by
  simp [streamCommand]
@[simp] theorem streamCommand_fault :
    streamCommand m k n (.fault :: rs) ws = ([.read .fault], some (mkRsp 0x00 .readError n)) := by
  simp [streamCommand]
@[simp] theorem streamCommand_eos_no_sink :
    streamCommand m k n (.eos :: rs) [] = ([.read .eos], none) := by
  simp [streamCommand]
@[simp] theorem streamCommand_eos_ok :
    streamCommand m k n (.eos :: rs) (.ok :: ws)
      = ([.read .eos, .flush .ok], some (mkRsp 0x00 .ok n)) := by
  simp [streamCommand]
@[simp] theorem streamCommand_eos_fail :
    streamCommand m k n (.eos :: rs) (.fail :: ws)
      = ([.read .eos, .flush .fail], some (mkRsp 0x00 .writeError n)) := by
  simp [streamCommand]
@[simp] theorem streamCommand_byte_no_sink :
    streamCommand m k n (.byte b :: rs) [] = ([.read (.byte b)], none) := by
  simp [streamCommand]
@[simp] theorem streamCommand_byte_fail :
    streamCommand m k n (.byte b :: rs) (.fail :: ws)
      = ([.read (.byte b), .write (xform m b k) .fail], some (mkRsp 0x00 .writeError n)) := by
  simp [streamCommand]
@[simp] theorem streamCommand_byte_ok :
    streamCommand m k n (.byte b :: rs) (.ok :: ws)
      = (.read (.byte b) :: .write (xform m b k) .ok :: (streamCommand m k (n + 1) rs ws).1,
          (streamCommand m k (n + 1) rs ws).2) := by
  simp [streamCommand]

end Loop

/-! ## Answers from the wires -/

@[simp] theorem SrcSample.answer_byte (b : Byte) : SrcSample.answer ⟨0b00, b⟩ = .byte b := rfl
@[simp] theorem SrcSample.answer_eos (d : Byte) : SrcSample.answer ⟨0b01, d⟩ = .eos := rfl
@[simp] theorem SrcSample.answer_fault (d : Byte) : SrcSample.answer ⟨0b10, d⟩ = .fault := rfl
/-- The reserved code is a fault (R115). -/
@[simp] theorem SrcSample.answer_reserved (d : Byte) : SrcSample.answer ⟨0b11, d⟩ = .fault := rfl
@[simp] theorem snkAnswer_low : snkAnswer false = .ok := rfl
@[simp] theorem snkAnswer_high : snkAnswer true = .fail := rfl

end Sys2Proof.Machine
end

