-- ==== Sys2Proof/Laws/Step.lean ====
section
/-! SUPPORT. What a step can do, said once: one lemma per case of the rising edge, and the inversion. -/

namespace Sys2Proof.Machine

/-! ## What a command can do -/

/-- All that executing a command can do: wait, complete at once, start a stream, or be refused. -/
theorem exec_cases (i : Instr) (s : State) :
    (s.st ≠ .idle ∧ exec i s = .next s)
    ∨ (s.st = .idle ∧ ∃ w, exec i s = .next (s.respond w))
    ∨ (s.st = .idle ∧ s.aliased = false ∧ ∃ m k, exec i s = .next (s.startStream m k))
    ∨ (s.st = .idle ∧ s.aliased = true ∧ exec i s = .refused .aliasedStreams) := by
  by_cases h : s.st = .idle
  · cases ha : s.aliased <;> cases i <;>
      simp [exec, execEncb, execDecb, execEncs, execDecs, h, ha]
  · cases i <;> exact .inl ⟨h, State.whenIdle_busy h _⟩

/-! ## The rising edge, case by case -/

/-- Before the end of the list the edge's levels are the first entry's. -/
@[simp] theorem State.edge_cons {s : State} {e : Edge} {es : List Edge} (h : s.edges = e :: es) :
    s.edge = e := by
  simp [State.edge, h]

/-- A reset edge (R130). -/
theorem step_reset_edge {s : State} (h : s.edge.rst = true) :
    step s = .next (s.passEdge.unitReset.record .reset) := by
  simp [step, clockEdge, ports, h]

/-- IDLE, and HOST offers a command. -/
theorem step_command_edge {s : State} {w : CmdWord} {ws : List CmdWord} (hst : s.st = .idle)
    (hr : s.edge.rst = false) (hv : s.edge.cmdValid = true) (hc : s.cmds = w :: ws) :
    step s = acceptCommand w (s.passEdge.popCmd.record (.command w)) := by
  simp [step, clockEdge, ports, Ports.commandDone, hst, hr, hv, hc]

/-- IDLE, and HOST offers nothing. -/
theorem step_idle_wait {s : State} (hst : s.st = .idle) (hr : s.edge.rst = false)
    (hv : (s.edge.cmdValid && !s.cmds.isEmpty) = false) : step s = .next s.passEdge := by
  simp only [Bool.and_eq_false_iff, Bool.not_eq_false', List.isEmpty_iff] at hv
  rcases hv with hv | hv <;>
    simp [step, clockEdge, ports, Ports.commandDone, Ports.responseDone, Ports.readDone,
      Ports.sinkDone, hst, hr, hv]

/-- RESP, and HOST takes the response. -/
theorem step_response_edge {s : State} (hst : s.st = .resp) (hr : s.edge.rst = false)
    (hv : s.edge.rspReady = true) :
    step s = .next (s.passEdge.takeResponse.record (.response s.rspR)) := by
  simp [step, clockEdge, ports, Ports.commandDone, Ports.responseDone, hst, hr, hv]

/-- RESP, and HOST does not take the response. -/
theorem step_resp_wait {s : State} (hst : s.st = .resp) (hr : s.edge.rst = false)
    (hv : s.edge.rspReady = false) : step s = .next s.passEdge := by
  simp [step, clockEdge, ports, Ports.commandDone, Ports.responseDone, Ports.readDone,
    Ports.sinkDone, hst, hr, hv]

/-- READ, and SRC answers. -/
theorem step_read_edge {s : State} {x : SrcSample} {xs : List SrcSample} (hst : s.st = .read)
    (hr : s.edge.rst = false) (hv : s.edge.srcAck = true) (hx : s.src = x :: xs) :
    step s = .next (takeRead x.answer s.passEdge) := by
  simp [step, clockEdge, ports, Ports.commandDone, Ports.responseDone, Ports.readDone, hst, hr, hv, hx]

/-- READ, and SRC does not answer. -/
theorem step_read_wait {s : State} (hst : s.st = .read) (hr : s.edge.rst = false)
    (hv : (s.edge.srcAck && !s.src.isEmpty) = false) : step s = .next s.passEdge := by
  simp only [Bool.and_eq_false_iff, Bool.not_eq_false', List.isEmpty_iff] at hv
  rcases hv with hv | hv <;>
    simp [step, clockEdge, ports, Ports.commandDone, Ports.responseDone, Ports.readDone,
      Ports.sinkDone, hst, hr, hv]

/-- WRITE, and SNK answers. -/
theorem step_write_edge {s : State} {x : Bool} {xs : List Bool} (hst : s.st = .write)
    (hr : s.edge.rst = false) (hv : s.edge.snkAck = true) (hx : s.snk = x :: xs) :
    step s = .next (takeSink false s.obuf (snkAnswer x) s.passEdge) := by
  simp [step, clockEdge, ports, Ports.commandDone, Ports.responseDone, Ports.readDone,
    Ports.sinkDone, hst, hr, hv, hx]
  rfl

/-- FLUSH, and SNK answers. -/
theorem step_flush_edge {s : State} {x : Bool} {xs : List Bool} (hst : s.st = .flush)
    (hr : s.edge.rst = false) (hv : s.edge.snkAck = true) (hx : s.snk = x :: xs) :
    step s = .next (takeSink true 0x00 (snkAnswer x) s.passEdge) := by
  simp [step, clockEdge, ports, Ports.commandDone, Ports.responseDone, Ports.readDone,
    Ports.sinkDone, hst, hr, hv, hx]

/-- WRITE or FLUSH, and SNK does not answer. -/
theorem step_sink_wait {s : State} (hst : s.st = .write ∨ s.st = .flush) (hr : s.edge.rst = false)
    (hv : (s.edge.snkAck && !s.snk.isEmpty) = false) : step s = .next s.passEdge := by
  simp only [Bool.and_eq_false_iff, Bool.not_eq_false', List.isEmpty_iff] at hv
  rcases hst with hst | hst <;> rcases hv with hv | hv <;>
    simp [step, clockEdge, ports, Ports.commandDone, Ports.responseDone, Ports.readDone,
      Ports.sinkDone, hst, hr, hv]

/-! ## The inversion -/

/-- All that a step can do, guards included. -/
theorem step_cases (s : State) :
    (s.edge.rst = true ∧ step s = .next (s.passEdge.unitReset.record .reset))
    ∨ (s.edge.rst = false ∧ step s = .next s.passEdge)
    ∨ (∃ w ws, s.edge.rst = false ∧ s.st = .idle ∧ s.edge.cmdValid = true ∧ s.cmds = w :: ws ∧
        step s = acceptCommand w (s.passEdge.popCmd.record (.command w)))
    ∨ (s.edge.rst = false ∧ s.st = .resp ∧ s.edge.rspReady = true ∧
        step s = .next (s.passEdge.takeResponse.record (.response s.rspR)))
    ∨ (∃ x xs, s.edge.rst = false ∧ s.st = .read ∧ s.edge.srcAck = true ∧ s.src = x :: xs ∧
        step s = .next (takeRead x.answer s.passEdge))
    ∨ (∃ x xs, s.edge.rst = false ∧ s.st = .write ∧ s.edge.snkAck = true ∧ s.snk = x :: xs ∧
        step s = .next (takeSink false s.obuf (snkAnswer x) s.passEdge))
    ∨ (∃ x xs, s.edge.rst = false ∧ s.st = .flush ∧ s.edge.snkAck = true ∧ s.snk = x :: xs ∧
        step s = .next (takeSink true 0x00 (snkAnswer x) s.passEdge)) := by
  cases hr : s.edge.rst with
  | true => exact .inl ⟨rfl, step_reset_edge hr⟩
  | false =>
    refine .inr ?_
    cases hst : s.st with
    | idle =>
      cases hv : s.edge.cmdValid with
      | false => exact .inl ⟨rfl, step_idle_wait hst hr (by simp [hv])⟩
      | true =>
        cases hc : s.cmds with
        | nil => exact .inl ⟨rfl, step_idle_wait hst hr (by simp [hc])⟩
        | cons w ws => exact .inr (.inl ⟨w, ws, rfl, rfl, rfl, rfl, step_command_edge hst hr hv hc⟩)
    | resp =>
      cases hv : s.edge.rspReady with
      | false => exact .inl ⟨rfl, step_resp_wait hst hr hv⟩
      | true => exact .inr (.inr (.inl ⟨rfl, rfl, rfl, step_response_edge hst hr hv⟩))
    | read =>
      cases hv : s.edge.srcAck with
      | false => exact .inl ⟨rfl, step_read_wait hst hr (by simp [hv])⟩
      | true =>
        cases hx : s.src with
        | nil => exact .inl ⟨rfl, step_read_wait hst hr (by simp [hx])⟩
        | cons x xs =>
          exact .inr (.inr (.inr (.inl ⟨x, xs, rfl, rfl, rfl, rfl, step_read_edge hst hr hv hx⟩)))
    | write =>
      cases hv : s.edge.snkAck with
      | false => exact .inl ⟨rfl, step_sink_wait (.inl hst) hr (by simp [hv])⟩
      | true =>
        cases hx : s.snk with
        | nil => exact .inl ⟨rfl, step_sink_wait (.inl hst) hr (by simp [hx])⟩
        | cons x xs =>
          exact .inr (.inr (.inr (.inr (.inl
            ⟨x, xs, rfl, rfl, rfl, rfl, step_write_edge hst hr hv hx⟩))))
    | flush =>
      cases hv : s.edge.snkAck with
      | false => exact .inl ⟨rfl, step_sink_wait (.inr hst) hr (by simp [hv])⟩
      | true =>
        cases hx : s.snk with
        | nil => exact .inl ⟨rfl, step_sink_wait (.inr hst) hr (by simp [hx])⟩
        | cons x xs =>
          exact .inr (.inr (.inr (.inr (.inr
            ⟨x, xs, rfl, rfl, rfl, rfl, step_flush_edge hst hr hv hx⟩))))

/-! ## The acceptance of a word, and the inversion down to it -/

/-- The response a word that completes at its acceptance gets (R76, R77, R113). -/
def CompletesWith (w : CmdWord) (r : RspWord) : Prop :=
  (∃ d k, decode w = .ok (.encb d k) ∧ r = mkRsp (encryptByte d k) .ok 0)
  ∨ (∃ d k, decode w = .ok (.decb d k) ∧ r = mkRsp (decryptByte d k) .ok 0)
  ∨ (∃ x, decode w = .error x ∧ r = mkRsp 0x00 .illegalCommand 0)

/-- The word starts a stream command of this mode and key (R90, R91). -/
def StartsStream (w : CmdWord) (m : BitVec 1) (k : Byte) : Prop :=
  (m = 0 ∧ decode w = .ok (.encs k)) ∨ (m = 1 ∧ decode w = .ok (.decs k))

/-- All that taking a word in IDLE can do. -/
theorem acceptCommand_cases {s : State} (h : s.st = .idle) (w : CmdWord) :
    (∃ r, CompletesWith w r ∧ acceptCommand w s = .next (s.respond r))
    ∨ (∃ m k, StartsStream w m k ∧ s.aliased = false ∧ acceptCommand w s = .next (s.startStream m k))
    ∨ (∃ m k, StartsStream w m k ∧ s.aliased = true ∧
        acceptCommand w s = .refused .aliasedStreams) := by
  unfold acceptCommand
  cases hd : decode w with
  | error x => exact .inl ⟨_, .inr (.inr ⟨x, hd, rfl⟩), rfl⟩
  | ok i =>
    cases i with
    | encb d k => exact .inl ⟨_, .inl ⟨d, k, hd, rfl⟩, State.whenIdle_idle h _⟩
    | decb d k => exact .inl ⟨_, .inr (.inl ⟨d, k, hd, rfl⟩), State.whenIdle_idle h _⟩
    | encs k =>
      cases ha : s.aliased
      · exact .inr (.inl ⟨0, k, .inl ⟨rfl, hd⟩, rfl, by simp [exec, execEncs, h, ha]⟩)
      · exact .inr (.inr ⟨0, k, .inl ⟨rfl, hd⟩, rfl, by simp [exec, execEncs, h, ha]⟩)
    | decs k =>
      cases ha : s.aliased
      · exact .inr (.inl ⟨1, k, .inr ⟨rfl, hd⟩, rfl, by simp [exec, execDecs, h, ha]⟩)
      · exact .inr (.inr ⟨1, k, .inr ⟨rfl, hd⟩, rfl, by simp [exec, execDecs, h, ha]⟩)

/-- Every way a step can answer a next state, guards included. -/
theorem step_next_cases {s s' : State} (h : step s = .next s') :
    (s.edge.rst = true ∧ s' = s.passEdge.unitReset.record .reset)
    ∨ (s.edge.rst = false ∧ s' = s.passEdge)
    ∨ (∃ w ws r, s.edge.rst = false ∧ s.st = .idle ∧ s.cmds = w :: ws ∧ CompletesWith w r ∧
        s' = (s.passEdge.popCmd.record (.command w)).respond r)
    ∨ (∃ w ws m k, s.edge.rst = false ∧ s.st = .idle ∧ s.cmds = w :: ws ∧ StartsStream w m k ∧
        s' = (s.passEdge.popCmd.record (.command w)).startStream m k)
    ∨ (s.edge.rst = false ∧ s.st = .resp ∧ s.edge.rspReady = true ∧
        s' = s.passEdge.takeResponse.record (.response s.rspR))
    ∨ (∃ x xs, s.edge.rst = false ∧ s.st = .read ∧ s.src = x :: xs ∧
        s' = takeRead x.answer s.passEdge)
    ∨ (∃ x xs, s.edge.rst = false ∧ s.st = .write ∧ s.snk = x :: xs ∧
        s' = takeSink false s.obuf (snkAnswer x) s.passEdge)
    ∨ (∃ x xs, s.edge.rst = false ∧ s.st = .flush ∧ s.snk = x :: xs ∧
        s' = takeSink true 0x00 (snkAnswer x) s.passEdge) := by
  rcases step_cases s with ⟨a, e⟩ | ⟨a, e⟩ | ⟨w, ws, a, b, -, d, e⟩ | ⟨a, b, c, e⟩ |
    ⟨x, xs, a, b, -, d, e⟩ | ⟨x, xs, a, b, -, d, e⟩ | ⟨x, xs, a, b, -, d, e⟩ <;> rw [h] at e
  · injection e with e; exact .inl ⟨a, e⟩
  · injection e with e; exact .inr (.inl ⟨a, e⟩)
  · rcases acceptCommand_cases (s := s.passEdge.popCmd.record (.command w)) (by simpa using b) w with
      ⟨r, hw, hr⟩ | ⟨m, k, hw, -, hr⟩ | ⟨m, k, -, -, hr⟩ <;> rw [hr] at e
    · injection e with e; exact .inr (.inr (.inl ⟨w, ws, r, a, b, d, hw, e⟩))
    · injection e with e; exact .inr (.inr (.inr (.inl ⟨w, ws, m, k, a, b, d, hw, e⟩)))
    · cases e
  · injection e with e; exact .inr (.inr (.inr (.inr (.inl ⟨a, b, c, e⟩))))
  · injection e with e; exact .inr (.inr (.inr (.inr (.inr (.inl ⟨x, xs, a, b, d, e⟩)))))
  · injection e with e; exact .inr (.inr (.inr (.inr (.inr (.inr (.inl ⟨x, xs, a, b, d, e⟩))))))
  · injection e with e; exact .inr (.inr (.inr (.inr (.inr (.inr (.inr ⟨x, xs, a, b, d, e⟩))))))

/-! ## Runs -/

@[simp] theorem steps_zero (s : State) : steps 0 s = .next s := rfl

/-- A run goes on after a step that answers a next state. -/
theorem steps_succ {s t : State} (h : step s = .next t) (n : Nat) : steps (n + 1) s = steps n t := by
  simp [steps, h]

end Sys2Proof.Machine
end

