-- ==== Sys2Proof/Laws/Observed.lean ====
section
/-! SUPPORT. The agents' views of a history when a transaction is added to it. -/

namespace Sys2Proof.Machine

/-- The session after one more transaction. -/
@[simp] theorem State.session_record (s : State) (t : Txn) :
    (s.record t).session = s.session.observe t := by
  simp [State.session]

/-- A reset edge takes nothing from what SRC has delivered and SNK has accepted (R131). -/
@[simp] theorem Session.observe_reset_accepted (c : Session) :
    (c.observe .reset).accepted = c.accepted := rfl
@[simp] theorem Session.observe_reset_delivered (c : Session) :
    (c.observe .reset).delivered = c.delivered := rfl
@[simp] theorem Session.observe_reset_command (c : Session) :
    (c.observe .reset).command = none := rfl

/-- The last run after one more transaction. -/
@[simp] theorem State.lastRun_record (s : State) (t : Txn) :
    (s.record t).lastRun = s.lastRun.observe t := by
  simp [State.lastRun]

/-- The last run depends on the history alone. -/
theorem State.lastRun_congr {s t : State} (h : s.trace = t.trace) : s.lastRun = t.lastRun := by
  simp [State.lastRun, h]

/-- Outside IDLE no run has ended. -/
@[simp] theorem ended_busy {s : State} (h : s.st ≠ .idle) : ended s = false := by
  simp [ended, h]

/-- In IDLE the history says whether the run has ended. -/
theorem ended_idle {s : State} (h : s.st = .idle) : ended s = (s.lastRun == .ended) := by
  simp [ended, h]

/-- The session depends on the history alone. -/
theorem State.session_congr {s t : State} (h : s.trace = t.trace) : s.session = t.session := by
  simp [State.session, h]

/-- The observer over two histories, one after the other. -/
theorem watch_append (m : Watch) (ts us : List Txn) :
    watch m (ts ++ us) = (watch m ts).bind (fun m' => watch m' us) := by
  induction ts generalizing m with
  | nil => rfl
  | cons t ts ih =>
    simp only [List.cons_append, watch]
    cases m.next t <;> simp [ih]

/-- The accepted bytes of two histories, one after the other. -/
theorem accepted_append (ts us : List Txn) : accepted (ts ++ us) = accepted ts ++ accepted us := by
  induction ts with
  | nil => rfl
  | cons t ts ih =>
    cases t with
    | write b r => cases r <;> simp [accepted, ih]
    | _ => simp [accepted, ih]

/-- Reset history: nothing observed. -/
@[simp] theorem State.session_reset : State.reset.session = Session.empty := rfl

end Sys2Proof.Machine
end

