-- ==== Sys2Proof/Laws/PerInstr.lean ====
section
/-! SUPPORT. Facts about every command as syntax, one lemma per constructor. -/

namespace Sys2Proof.Laws.TableRow

/-- The command's word carries the fixed bits of its row of the opcode map (R56): under the row's mask
it is the row's match value. -/
def Statement (i : Instr) : Prop := encode i &&& encodingMask i = encodingMatch i

/-- The fixed bits of ENCB's row. -/
theorem encb (data key : Byte) : Statement (.encb data key) := by
  unfold Statement encode encodingMask encodingMatch
  ext j hj
  simp only [BitVec.getElem_and, BitVec.getElem_append]
  interval_cases j <;> simp

/-- The fixed bits of DECB's row. -/
theorem decb (data key : Byte) : Statement (.decb data key) := by
  unfold Statement encode encodingMask encodingMatch
  ext j hj
  simp only [BitVec.getElem_and, BitVec.getElem_append]
  interval_cases j <;> simp

/-- The fixed bits of ENCS's row. -/
theorem encs (key : Byte) : Statement (.encs key) := by
  unfold Statement encode encodingMask encodingMatch
  ext j hj
  simp only [BitVec.getElem_and, BitVec.getElem_append]
  interval_cases j <;> simp

/-- The fixed bits of DECS's row. -/
theorem decs (key : Byte) : Statement (.decs key) := by
  unfold Statement encode encodingMask encodingMatch
  ext j hj
  simp only [BitVec.getElem_and, BitVec.getElem_append]
  interval_cases j <;> simp

end Sys2Proof.Laws.TableRow
end

