-- ==== Sys2Proof/Tests/Slice0.lean ====
section
/-! SUPPORT. Tests of the model, each one step or less, with results from `95_test_vectors.md` or hand
calculation from the rules; and a witness for the hypotheses of each statement that has some. -/

namespace Sys2Proof.Tests

open Sys2Proof.Machine

/-! ## Well-formedness: each check refuses an ill-formed term (R62) -/

theorem test_wf_encb_data : (Source.encb 256 0).wellFormed = false := by decide
theorem test_wf_encb_key : (Source.encb 0 256).wellFormed = false := by decide
theorem test_wf_decb_data : (Source.decb 256 0).wellFormed = false := by decide
theorem test_wf_decb_key : (Source.decb 0 256).wellFormed = false := by decide
theorem test_wf_encs_key : (Source.encs 256).wellFormed = false := by decide
theorem test_wf_decs_key : (Source.decs 256).wellFormed = false := by decide
theorem test_wf_permb_data : (Source.permb 256).wellFormed = false := by decide
theorem test_wf_ipermb_data : (Source.ipermb 256).wellFormed = false := by decide
theorem test_wf_word : (Source.word (2 ^ 32)).wellFormed = false := by decide
theorem test_wf_accepts : (Source.encb 255 255).wellFormed = true := by decide

/-! ## Decoding: words written out from the patterns of the opcode map (R56) -/

theorem test_decode_encb :
    decode 0b00000000_10100101_01011010_0000_0000 = .ok (.encb 0xA5 0x5A) := by rfl
theorem test_decode_decb :
    decode 0b00000000_00010010_00000101_0000_0001 = .ok (.decb 0x12 0x05) := by rfl
theorem test_decode_encs :
    decode 0b00000000_00000000_00111100_0000_0010 = .ok (.encs 0x3C) := by rfl
theorem test_decode_decs :
    decode 0b00000000_00000000_10100111_0000_0011 = .ok (.decs 0xA7) := by rfl
theorem test_decode_rsv0 : decode 0x00000010 = .error .reservedBits := by rfl
theorem test_decode_rsv1 : decode 0x80000003 = .error .reservedBits := by rfl
theorem test_decode_opcode : decode 0x00000004 = .error .reservedOpcode := by rfl
theorem test_decode_encs_data : decode 0x00010002 = .error .streamData := by rfl
theorem test_decode_decs_data : decode 0x00FF0003 = .error .streamData := by rfl
/-- The word 0x00410500 in memory order (R35). -/
theorem test_decode_bytes : decodeBytes [0x00, 0x05, 0x41, 0x00] = .ok (.encb 0x41 0x05) := by rfl
theorem test_decode_short : decodeBytes [0x00, 0x05, 0x41] = .error .notOneWord := by rfl
theorem test_decodeTableWord : decodeTableWord 32 0x00DEAD01 = some (.decb 0xDE 0xAD) := by rfl

/-! ## The assembler (R62, R63) -/

/-- Line 2 of program 1. -/
theorem test_assemble_line :
    assembleLines [[' ', 'E', 'N', 'C', 'B', ' ', '0', 'x', '4', '1', ',', ' ', '5', ' ', ';', ' ', 'x']]
      = some [0x00410500] := by rfl
/-- Line 5 of program 1. -/
theorem test_assemble_ipermb :
    assembleLines [['I', 'P', 'E', 'R', 'M', 'B', ' ', '0', 'x', '2', '0']] = some [0x00200001] := by rfl
theorem test_assemble_refuses :
    assembleLines [['E', 'N', 'C', 'S', ' ', '2', '5', '6']] = none := by rfl

/-! ## The transform (95_test_vectors.md, sections 1 to 3) -/

theorem test_encryptByte_source : encryptByte 0x01 0x00 = 0x04 := by decide
theorem test_encryptByte_mixed : encryptByte 0xDE 0xAD = 0x8F := by decide
theorem test_decryptByte_mixed : decryptByte 0xDE 0xAD = 0xF2 := by decide

/-! ## States for the tests -/

/-- An edge at which every agent acts and `rst` is low. -/
def go : Edge := { rst := false, cmdValid := true, rspReady := true, srcAck := true, snkAck := true }

/-- An edge at which SRC and SNK act and nobody else. -/
def streams : Edge := { Edge.quiet with srcAck := true, snkAck := true }

/-- A reset edge at which every agent acts too. -/
def resetEdge : Edge := { go with rst := true }

/-- HOST offers `w` to the unit as reset leaves it. -/
def offered (w : CmdWord) : State := State.reset.withFetchWord 32 w.toNat

/-- A stream command in the phase `p`, with key 5, COUNT 2 and OBUF 0x12, the next edge being `e`. -/
def inPhase (p : Phase) (e : Edge) : State :=
  { State.reset with st := p, keyR := 0x05, count := 2, obuf := 0x12, edges := [e] }

/-- What the unit shows after one step. -/
def after (s : State) : Option (Phase × RspWord) :=
  match step s with
  | .next t => some (t.st, t.rspR)
  | .fault _ => none
  | .refused _ => none

/-! ## One step of each command -/

/-- `ENCB 0x41, 5` (section 3). -/
theorem test_encb_step : after (offered 0x00410500) = some (.resp, 0x0000000000000012) := by decide
/-- `DECB 0x12, 5` (section 3). -/
theorem test_decb_step : after (offered 0x00120501) = some (.resp, 0x0000000000000041) := by decide
/-- `ENCS 5`: the first step of vector S3. -/
theorem test_encs_step : exec (.encs 0x05) (inPhase .idle go)
    = .next { inPhase .read go with keyR := 0x05, modeR := 0, count := 0 } := by rfl
/-- `DECS 0x3C`: the first step of vector S5. -/
theorem test_decs_step : exec (.decs 0x3C) (inPhase .idle go)
    = .next { inPhase .read go with keyR := 0x3C, modeR := 1, count := 0 } := by rfl
/-- An illegal word (section 5). -/
theorem test_illegal_step : after (offered 0x00FF0003) = some (.resp, 0x0000000000000300) := by decide

/-! ## One step of the engine -/

/-- Encrypting 0xFF under key 5 gives 0xEB (S3). -/
theorem test_read_byte :
    step { inPhase .read go with src := [⟨0b00, 0xFF⟩] }
      = .next { inPhase .write go with obuf := 0xEB, edges := [], trace := [.read (.byte 0xFF)] } := by
  rfl
/-- The reserved `src_kind` is a fault after 2 bytes (S5, R115). -/
theorem test_read_reserved :
    after { inPhase .read go with src := [⟨0b11, 0xFF⟩] } = some (.resp, 0x0000000000020100) := by decide
/-- A rejected byte is not counted (R93). -/
theorem test_write_fail :
    after { inPhase .write go with snk := [true] } = some (.resp, 0x0000000000020200) := by decide
/-- COUNT wraps (R20). -/
theorem test_write_wraps :
    step { inPhase .write go with count := 0xFFFFFFFFFFFF, snk := [false] }
      = .next { inPhase .read go with count := 0, edges := [], trace := [.write 0x12 .ok] } := by rfl
/-- The response word of S3 in memory order (R35). -/
theorem test_response_bytes :
    bytesOfRsp 0x0000000000030000 = [0x00, 0x00, 0x03, 0x00, 0x00, 0x00, 0x00, 0x00] := by decide
theorem test_flush_ok :
    after { inPhase .flush go with snk := [false] } = some (.resp, 0x0000000000020000) := by decide

/-! ## Witnesses: the hypotheses of each statement can be met -/

theorem witness_DecodeEncodeAgree : (Instr.encb 0xFF 0xFF).wellFormed = true := by decide
theorem witness_EncodeDecodeAgree : decode 0x0000FF03 = .ok (.decs 0xFF) := by rfl
theorem witness_BytesLittleEndian :
    ([0x01, 0x02, 0x03, 0x04] : List Byte).length = 4 ∧ ([] : List Byte).length ≠ 4 ∧ 3 < 4 ∧
    (List.replicate 8 (0x01 : Byte)).length = 8 ∧ 7 < 8 := by decide
theorem witness_AssemblerWords :
    (255 ≤ 255 ∧ 2 ^ 32 - 1 < 2 ^ 32) ∧ (255 < 256 ∨ 255 < 0) ∧ 2 ^ 32 ≤ 2 ^ 32 := by decide
theorem witness_BitPrimitives : (7 : Fin 8) ≠ 0 := by decide
theorem witness_XformSelectsByMode : (0 : BitVec 1) = 0 ∧ (1 : BitVec 1) = 1 := by decide
theorem witness_PermutationLaws : (0 < 1 ∧ 1 < 15) ∧ (0 < 14 ∧ 14 < 15) := by decide

theorem witness_EncbResponds : (inPhase .idle go).st = .idle := by decide
theorem witness_DecbResponds : (inPhase .idle go).st = .idle := by decide
theorem witness_EncsStarts : (inPhase .idle go).st = .idle ∧ (inPhase .idle go).aliased = false := by
  decide
theorem witness_DecsStarts : (inPhase .idle go).st = .idle ∧ (inPhase .idle go).aliased = false := by
  decide
theorem witness_AliasedStreamRefused :
    ({ inPhase .idle go with aliased := true } : State).st = .idle ∧
    ({ inPhase .idle go with aliased := true } : State).aliased = true := by decide
theorem witness_BusyUnitTakesNoCommand :
    (inPhase .read go).st ≠ .idle ∧ (inPhase .write go).st ≠ .idle ∧ (inPhase .flush go).st ≠ .idle ∧
    (inPhase .resp go).st ≠ .idle := by decide

/-- An idle unit to which HOST offers the word. -/
def idleWith (w : CmdWord) : State := { inPhase .idle go with cmds := [w] }

theorem witness_IllegalCommandCompletes :
    (idleWith 0x0000000F).st = .idle ∧ (idleWith 0x0000000F).edges = [go] ∧ go.rst = false ∧
    go.cmdValid = true ∧ (idleWith 0x0000000F).cmds = [0x0000000F] ∧
    decode 0x0000000F = .error .reservedOpcode := ⟨rfl, rfl, rfl, rfl, rfl, rfl⟩
theorem witness_StepRunsDecodedCommand :
    (idleWith 0x00000502).st = .idle ∧ (idleWith 0x00000502).edges = [go] ∧ go.rst = false ∧
    go.cmdValid = true ∧ (idleWith 0x00000502).cmds = [0x00000502] ∧
    decode 0x00000502 = .ok (.encs 0x05) ∧ (Instr.encs 0x05).wellFormed = true :=
  ⟨rfl, rfl, rfl, rfl, rfl, rfl, rfl⟩

/-- Each answer of SRC, the reserved one too, and both ways of not answering. -/
theorem witness_ReadPhaseStep :
    ((inPhase .read go).st = .read ∧ (inPhase .read go).edges = [go] ∧ go.rst = false ∧
      go.srcAck = true) ∧
    ({ inPhase .read go with src := [⟨0b00, 0xFF⟩] } : State).src = [⟨0b00, 0xFF⟩] ∧
    SrcSample.answer ⟨0b00, 0xFF⟩ = .byte 0xFF ∧ SrcSample.answer ⟨0b01, 0x00⟩ = .eos ∧
    SrcSample.answer ⟨0b10, 0x00⟩ = .fault ∧ SrcSample.answer ⟨0b11, 0x00⟩ = .fault ∧
    Edge.quiet.srcAck = false ∧ (inPhase .read go).src = [] := by decide
theorem witness_WritePhaseStep :
    ((inPhase .write go).st = .write ∧ (inPhase .write go).edges = [go] ∧ go.rst = false ∧
      go.snkAck = true) ∧
    ({ inPhase .write go with snk := [false] } : State).snk = [false] ∧
    ({ inPhase .write go with snk := [true] } : State).snk = [true] ∧
    Edge.quiet.snkAck = false ∧ (inPhase .write go).snk = [] := by decide
theorem witness_FlushPhaseStep :
    ((inPhase .flush go).st = .flush ∧ (inPhase .flush go).edges = [go] ∧ go.rst = false ∧
      go.snkAck = true) ∧
    ({ inPhase .flush go with snk := [false] } : State).snk = [false] ∧
    ({ inPhase .flush go with snk := [true] } : State).snk = [true] ∧
    Edge.quiet.snkAck = false ∧ (inPhase .flush go).snk = [] := by decide
theorem witness_ResponseTaken :
    (inPhase .resp go).st = .resp ∧ (inPhase .resp go).edges = [go] ∧ go.rst = false ∧
    go.rspReady = true ∧ streams.rst = false ∧ streams.rspReady = false := by decide
theorem witness_ResetEdgeWins :
    (inPhase .write resetEdge).edges = [resetEdge] ∧ resetEdge.rst = true := by decide
theorem witness_OutputWires :
    (ports (inPhase .flush go)).snkOp = true ∧ (ports (inPhase .write go)).snkOp = false := by decide
theorem witness_AtMostOneHandshake :
    (ports (inPhase .read Edge.quiet)).rst = false ∧
    (ports (inPhase .read Edge.quiet)).commandDone = false ∧
    (ports (inPhase .read Edge.quiet)).responseDone = false ∧
    (ports (inPhase .read Edge.quiet)).readDone = false ∧
    (ports (inPhase .read Edge.quiet)).sinkDone = false := by decide

theorem witness_PhaseTransitions : ∃ s', step (inPhase .resp go) = .next s' := ⟨_, rfl⟩
/-- ENCS 5 from IDLE, and a read that leaves KEY_R and MODE_R alone. -/
theorem witness_KeyAndModeWriters :
    (∃ s', step (idleWith 0x00000502) = .next s' ∧ s'.st = .read) ∧
    (ports (idleWith 0x00000502)).rst = false ∧
    (∃ s', step (inPhase .read go) = .next s') ∧ (ports (inPhase .read go)).rst = false :=
  ⟨⟨_, rfl, rfl⟩, rfl, ⟨_, rfl⟩, rfl⟩
/-- Each clause: a stream command accepted, a write accepted at the wrap, and a read. -/
theorem witness_CountWriters :
    (∃ s', step (idleWith 0x00000502) = .next s' ∧ (idleWith 0x00000502).st = .idle ∧ s'.st = .read) ∧
    (∃ s', step { inPhase .write go with count := 0xFFFFFFFFFFFF, snk := [false] } = .next s' ∧
      s'.trace = [] ++ [.write 0x12 .ok]) ∧
    (∃ s', step (inPhase .read go) = .next s' ∧ s'.trace = []) ∧ (ports (inPhase .read go)).rst = false :=
  ⟨⟨_, rfl, rfl, rfl⟩, ⟨_, rfl, rfl⟩, ⟨_, rfl, rfl⟩, rfl⟩
theorem witness_ResponseAndBufferWriters :
    (∃ s', step { inPhase .read go with src := [⟨0b00, 0xFF⟩] } = .next s') ∧
    (ports (inPhase .read go)).rst = false := ⟨⟨_, rfl⟩, rfl⟩
theorem witness_CommandsWaitUnconsumed :
    (∃ s', step (idleWith 0x00000004) = .next s') ∧
    (∃ s', step { inPhase .resp streams with cmds := [0x00000502] } = .next s') := ⟨⟨_, rfl⟩, ⟨_, rfl⟩⟩
theorem witness_RunningCommandIgnoresPort :
    (inPhase .read go).st ≠ .idle ∧ (inPhase .resp go).st ≠ .idle := by decide

theorem witness_StepCompletesOrAliased :
    ({ idleWith 0x00000502 with aliased := true } : State).aliased = true ∧
    (ports { idleWith 0x00000502 with aliased := true }).commandDone = true ∧
    (ports { idleWith 0x00000502 with aliased := true }).cmdWord = encode (streamInstr 0 0x05) := by
  decide

/-- ENCB 0x01, 0 answered and waiting for HOST (V1.1), the next edge being `e`. -/
def answered (e : Edge) : State :=
  { inPhase .resp e with rspR := 0x0000000000000004, trace := [.command 0x00010000] }

/-- The response taken, and the command abandoned by reset in RESP. -/
theorem witness_RunEndsByResponseTaken :
    (Orderly (answered go) ∧ (answered go).lastRun = .running ∧
      ∃ s', step (answered go) = .next s' ∧ ended s' = true ∧
        s'.trace = (answered go).trace ++ [.response (answered go).rspR]) ∧
    (Orderly (answered resetEdge) ∧ (ports (answered resetEdge)).rst = true ∧
      ∃ s', step (answered resetEdge) = .next s' ∧ s'.lastRun = .abandoned ∧ ended s' = false) :=
  ⟨⟨rfl, rfl, _, rfl, rfl, rfl⟩, rfl, rfl, _, rfl, rfl, rfl⟩

theorem witness_HostDeadlocks :
    ({ inPhase .resp streams with cmds := [0x00000502] } : State).st = .resp ∧
    undisturbed [streams] = true := by decide
/-- Each phase with an agent that does not act, and with one that has nothing to say. -/
theorem witness_StallsHaveNoBound :
    (∀ e ∈ [Edge.quiet], e.rst = false ∧ e.srcAck = false ∧ e.snkAck = false) ∧
    ((inPhase .read go).st = .read ∧ (inPhase .read go).src = []) ∧
    ((inPhase .write go).st = .write ∧ (inPhase .write go).snk = []) ∧
    ((inPhase .flush go).st = .flush ∧ (inPhase .flush go).snk = []) ∧ go.rst = false := by decide

/-- Vector S3 after its first read: `ENCS 5` has read 0x00 and is to write 0x14. -/
def midWrite : State :=
  { inPhase .write go with
    count := 0, obuf := 0x14, snk := [false], trace := [.command 0x00000502, .read (.byte 0x00)] }

theorem witness_OrderlyKept : Orderly midWrite ∧ ∃ s', step midWrite = .next s' := ⟨rfl, _, rfl⟩
theorem witness_FaithfulKept : Faithful midWrite ∧ ∃ s', step midWrite = .next s' :=
  ⟨⟨⟨rfl, rfl, rfl, rfl⟩, rfl, rfl⟩, _, rfl⟩

/-- Vector S6 at its response: `ENCS 0x11` with the second byte rejected. -/
def afterReject : State :=
  { inPhase .resp go with
    keyR := 0x11, count := 1, obuf := 0x85, rspR := 0x0000000000010200
    trace := [.command 0x00001102, .read (.byte 0x10), .write 0x04 .ok, .read (.byte 0x20),
      .write 0x85 .fail] }

theorem witness_PartialOutcome :
    Faithful afterReject ∧ afterReject.st = .resp ∧
    afterReject.session.command = some (encode (streamInstr 0 0x11)) ∧
    Durable afterReject.session [0x04] :=
  ⟨⟨0x00001102, rfl, .inr (.inr (.inr ⟨rfl, ⟨0x85, rfl, rfl⟩, rfl, rfl⟩))⟩, rfl, rfl, [], rfl⟩

/-- Vector S6's command abandoned by reset in its second write: one byte accepted, and durable or not. -/
theorem witness_AbandonedBytesStay :
    (ports { afterReject with st := .write, edges := [resetEdge] }).rst = true ∧
    Durable afterReject.session [0x04] ∧ Durable afterReject.session [] :=
  ⟨rfl, ⟨[], rfl⟩, [0x04], rfl⟩

/-- A stream command at its first read, with one byte to come and both agents answering. -/
def readyState (mode : BitVec 1) (key b : Byte) : State :=
  { State.reset with
    st := .read, keyR := key, modeR := mode
    edges := [Edge.quiet, streams, streams, streams, streams]
    src := [⟨0b00, b⟩, ⟨0b01, 0x00⟩], snk := [false, false] }

theorem witness_EngineRunsTheLoop :
    (readyState 0 0x11 0x10).st = .read ∧ undisturbed (readyState 0 0x11 0x10).edges = true ∧
    streamCommand 0 0x11 0 [.byte 0x10, .eos] [.ok, .ok]
      = ([.read (.byte 0x10), .write 0x04 .ok, .read .eos, .flush .ok], some 0x0000000000010000) ∧
    4 ≤ answering (readyState 0 0x11 0x10).edges := by decide
/-- A loop that ends, and the three places where an agent may stop answering. -/
theorem witness_EngineNeverLeavesTheLoop :
    (readyState 0 0x11 0x10).st = .read ∧ undisturbed (readyState 0 0x11 0x10).edges = true ∧
    streamCommand 0 0x11 0 [.byte 0x10, .eos] [.ok, .fail]
      = ([.read (.byte 0x10), .write 0x04 .ok, .read .eos, .flush .fail], some 0x0000000000010200) ∧
    streamCommand 0 0x11 0 [.byte 0x10] [.ok] = ([.read (.byte 0x10), .write 0x04 .ok], none) ∧
    streamCommand 0 0x11 0 [.byte 0x10] [] = ([.read (.byte 0x10)], none) ∧
    streamCommand 0 0x11 0 [.eos] [] = ([.read .eos], none) := by
  decide

/-- The hypotheses of the statements about whole streams, at vector S7's data with the flush accepted. -/
theorem readyState_ready (mode : BitVec 1) (key b : Byte) : ReadyFor mode key [b] (readyState mode key b) where
  phase := rfl
  mode_eq := rfl
  key_eq := rfl
  count_eq := rfl
  source := ⟨[], rfl⟩
  sink := ⟨[], rfl⟩
  calm := rfl
  enough := Nat.le_refl 4

theorem witness_StreamSucceeds : ReadyFor 0 0x11 [0x10] (readyState 0 0x11 0x10) := readyState_ready _ _ _
/-- The encryption's run of one byte ends, with the output 0x04 for the decryption to read. -/
theorem witness_StreamRoundTrip :
    ReadyFor 0 0x11 [0x10] (readyState 0 0x11 0x10) ∧
    ∃ s', steps (readyState 0 0x11 0x10).edges.length (readyState 0 0x11 0x10) = .next s' ∧
      ReadyFor 1 0x11 (s'.output.drop (readyState 0 0x11 0x10).output.length) (readyState 1 0x11 0x04) :=
  ⟨readyState_ready _ _ _, _, rfl, readyState_ready 1 0x11 0x04⟩

/-- One unit for the whole of a stream of two bytes. -/
def wholeState (key b c : Byte) : State :=
  { State.reset with
    st := .read, keyR := key, edges := List.replicate 6 streams
    src := [⟨0b00, b⟩, ⟨0b00, c⟩, ⟨0b01, 0x00⟩], snk := [false, false, false] }

theorem witness_ShardingAgrees :
    List.Forall₂ (ReadyFor 0 0xA7) [[0xDE], [0xAD]] [readyState 0 0xA7 0xDE, readyState 0 0xA7 0xAD] ∧
    ReadyFor 0 0xA7 [[0xDE], [0xAD]].flatten (wholeState 0xA7 0xDE 0xAD) :=
  ⟨.cons (readyState_ready _ _ _) (.cons (readyState_ready _ _ _) .nil),
    { phase := rfl, mode_eq := rfl, key_eq := rfl, count_eq := rfl, source := ⟨[], rfl⟩
      sink := ⟨[], rfl⟩, calm := rfl, enough := by decide }⟩

theorem witness_OldRegistersUnobservable : (idleWith 0x00000502).st = .idle := by decide
theorem witness_UnitsShareNothing :
    ∃ sys', System.stepUnit 1 { units := [State.reset, inPhase .resp go] } = .next sys' := ⟨_, rfl⟩
theorem witness_UnitStepsCommute :
    (0 : Nat) ≠ 1 ∧
    ∃ out, System.run [0, 1] { units := [idleWith 0x00000502, inPhase .resp go] } = .next out :=
  ⟨by decide, _, rfl⟩
theorem witness_SystemResetEachUnit :
    Config.unitsAllowed Config.defaultUnits = true ∧ 0 < Config.defaultUnits := by decide

end Sys2Proof.Tests
end

section
/-! The bit primitives of R8, each said once through `BitVec.getLsbD`: what a bit read answers, and what
every position holds after a bit write. -/

namespace Sys2Proof.Proofs.Bits

open Sys2Proof.Machine

/-- Shift and mask read the bit of that position (R8). -/
theorem bit_eq_ofBool_getLsbD (b : Byte) (p : Fin 8) : bit b p = BitVec.ofBool (b.getLsbD p) := by
  apply BitVec.eq_of_getLsbD_eq
  intro i hi
  obtain rfl : i = 0 := by omega
  simp [bit]

theorem bit_eq_one_iff (b : Byte) (p : Fin 8) : bit b p = 1 ↔ b.toNat.testBit p = true := by
  rw [bit_eq_ofBool_getLsbD, BitVec.testBit_toNat]
  exact BitVec.ofBool_eq_iff_eq (b' := true)

/-- The value shifted into place reaches no other position: lower ones are cut off by the shift, higher
ones lie beyond the one bit of `v`. -/
theorem getLsbD_setbit (b : Byte) (p q : Fin 8) (v : BitVec 1) :
    (setbit b p v).getLsbD q = if q = p then v.getLsbD 0 else b.getLsbD q := by
  have placed : (v.setWidth 8 <<< p.val).getLsbD q = (decide (q = p) && v.getLsbD 0) := by
    rcases lt_trichotomy q p with below | rfl | above
    · simp [below, below.ne]
    · simp
    · have beyond : v.getLsbD (q.val - p.val) = false := BitVec.getLsbD_of_ge _ _ (by omega)
      simp [above.ne', beyond]
  have cleared : (~~~((1 : Byte) <<< p.val)).getLsbD q = !decide (q = p) := by
    rcases lt_trichotomy q p with below | rfl | above
    · simp [below, below.ne]
    · simp
    · have nonzero : q.val - p.val ≠ 0 := by omega
      simp [above.ne', nonzero]
  rw [setbit, BitVec.getLsbD_or, BitVec.getLsbD_and, placed, cleared]
  by_cases same : q = p <;> simp [same]

@[simp] theorem bit_setbit_same (b : Byte) (p : Fin 8) (v : BitVec 1) : bit (setbit b p v) p = v := by
  rw [bit_eq_ofBool_getLsbD, getLsbD_setbit, if_pos rfl]
  apply BitVec.eq_of_getLsbD_eq
  intro i hi
  obtain rfl : i = 0 := by omega
  simp

@[simp] theorem bit_setbit_of_ne {p q : Fin 8} (other : q ≠ p) (b : Byte) (v : BitVec 1) :
    bit (setbit b p v) q = bit b q := by
  rw [bit_eq_ofBool_getLsbD, getLsbD_setbit, if_neg other, bit_eq_ofBool_getLsbD]

/-- Settles O10: the read is `testBit`, and a write is seen at its own position and at no other. -/
theorem bitPrimitives : Obligations.BitPrimitives := fun b p _ v =>
  ⟨bit_eq_one_iff b p, bit_setbit_same b p v, fun other => bit_setbit_of_ne other b v⟩

end Sys2Proof.Proofs.Bits
end

section
/-! PTABLE as a map of the eight positions (R12, R13): distinct sources have distinct destinations, and on
a finite set that already makes `dst` a bijection. -/

namespace Sys2Proof.Proofs.Ptable

open Sys2Proof.Machine

/-- No entry of the table stands twice. -/
theorem dst_injective : Function.Injective dst := by
  have distinct : ∀ s t : Fin 8, dst s = dst t → s = t := by decide
  exact fun s t => distinct s t

theorem dst_bijective : Function.Bijective dst :=
  dst_injective.bijective_of_finite

/-- Settles O9: the entries are read off the table, and each position's one source is the bijectivity of
`dst`. -/
theorem ptableIsTheBijection : Obligations.PtableIsTheBijection :=
  ⟨rfl, rfl, rfl, rfl, rfl, rfl, rfl, rfl, dst_bijective.existsUnique⟩

end Sys2Proof.Proofs.Ptable
end

section
/-! The response word as a layout (R59): each field is read back by passing over the fields that `mkRsp`
places below it. -/

namespace Sys2Proof.Proofs.Response

open Sys2Proof.Machine

section Fields
variable (r : Byte) (st : Status) (n : Count)

@[simp] theorem rspResult_mkRsp : rspResult (mkRsp r st n) = r :=
  BitVec.extractLsb'_append_eq_right

@[simp] theorem rspStatus_mkRsp : rspStatus (mkRsp r st n) = st.code := by
  rw [rspStatus, mkRsp, BitVec.extractLsb'_append_eq_of_le (by decide)]
  exact BitVec.extractLsb'_append_eq_right

@[simp] theorem rspReserved_mkRsp : rspReserved (mkRsp r st n) = 0 := by
  rw [rspReserved, mkRsp, BitVec.extractLsb'_append_eq_of_le (by decide),
    BitVec.extractLsb'_append_eq_of_le (by decide)]
  exact BitVec.extractLsb'_append_eq_right

@[simp] theorem rspCount_mkRsp : rspCount (mkRsp r st n) = n := by
  rw [rspCount, mkRsp, BitVec.extractLsb'_append_eq_of_le (by decide),
    BitVec.extractLsb'_append_eq_of_le (by decide)]
  exact BitVec.extractLsb'_append_eq_left

end Fields

/-- Settles O18: the four fields come back as they were placed, and the codes are read off their table. -/
theorem responseFields : Obligations.ResponseFields :=
  ⟨fun r st n => ⟨rspResult_mkRsp r st n, rspStatus_mkRsp r st n, rspReserved_mkRsp r st n,
    rspCount_mkRsp r st n⟩, rfl, rfl, rfl, rfl⟩

end Sys2Proof.Proofs.Response
end

section
/-! The byte transform bit by bit (R70 to R73). Both permutations are one loop over the positions which
writes each bit once; what the loop leaves at a destination is therefore said once, for any injective choice
of destinations, and used with `dst` for `P` and with the identity for its inverse. -/

namespace Sys2Proof.Proofs.Transform

open Sys2Proof.Machine Sys2Proof.Proofs.Bits Sys2Proof.Proofs.Ptable

/-- XOR acts on each bit by itself. -/
@[simp] theorem bit_xor (a b : Byte) (p : Fin 8) : bit (a ^^^ b) p = bit a p ^^^ bit b p := by
  simp only [bit_eq_ofBool_getLsbD, BitVec.getLsbD_xor, BitVec.ofBool_xor_ofBool]

/-- The loop that writes the bit `val p` at `dest p`, for each `p` it visits: where no two positions share a
destination, a later write never undoes an earlier one. -/
theorem bit_foldl_setbit {dest : Fin 8 → Fin 8} (inj : Function.Injective dest) (val : Fin 8 → BitVec 1)
    (ps : List (Fin 8)) (r : Byte) (s : Fin 8) :
    bit (ps.foldl (fun acc p => setbit acc (dest p) (val p)) r) (dest s) =
      if s ∈ ps then val s else bit r (dest s) := by
  induction ps generalizing r with
  | nil => simp
  | cons p ps ih =>
    rw [List.foldl_cons, ih]
    by_cases here : s = p
    · simp [here]
    · simp [here, bit_setbit_of_ne (inj.ne here)]

/-- The loops of R70 and R71 leave no position out. -/
theorem mem_positions (s : Fin 8) : s ∈ positions := by
  revert s
  decide

/-- A loop over all the positions: what stood at the destination before does not matter. -/
theorem bit_foldl_positions {dest : Fin 8 → Fin 8} (inj : Function.Injective dest)
    (val : Fin 8 → BitVec 1) (r : Byte) (s : Fin 8) :
    bit (positions.foldl (fun acc p => setbit acc (dest p) (val p)) r) (dest s) = val s := by
  rw [bit_foldl_setbit inj, if_pos (mem_positions s)]

@[simp] theorem bit_perm_dst (x : Byte) (s : Fin 8) : bit (perm x) (dst s) = bit x s :=
  bit_foldl_positions dst_injective (bit x) 0x00 s

@[simp] theorem bit_permInv (c : Byte) (s : Fin 8) : bit (permInv c) s = bit c (dst s) :=
  bit_foldl_positions Function.injective_id (fun p => bit c (dst p)) 0x00 s

/-- Settles O11: the destinations of PTABLE are distinct, so each write of the loop stays. -/
theorem permMovesEachBit : Obligations.PermMovesEachBit := bit_perm_dst

/-- Settles O12: the inverse writes each position itself, from its destination in PTABLE. -/
theorem permInvMovesEachBit : Obligations.PermInvMovesEachBit := bit_permInv

/-- R72: the key goes in at the source position, before the permutation. -/
theorem bit_encryptByte_dst (b k : Byte) (s : Fin 8) :
    bit (encryptByte b k) (dst s) = bit b s ^^^ bit k s := by
  rw [encryptByte, bit_perm_dst, bit_xor]

/-- R73: the key goes in at the position the inverse has moved to. -/
theorem bit_decryptByte (c k : Byte) (s : Fin 8) :
    bit (decryptByte c k) s = bit c (dst s) ^^^ bit k s := by
  rw [decryptByte, bit_xor, bit_permInv]

/-- Settles O14: XOR bit by bit, before the permutation in one direction and after it in the other. -/
theorem transformBitByBit : Obligations.TransformBitByBit := fun b k s =>
  ⟨bit_encryptByte_dst b k s, bit_decryptByte b k s⟩

end Sys2Proof.Proofs.Transform
end

section
/-! The byte commands (R76, R77): each is one guarded response, which IDLE lets through. -/

namespace Sys2Proof.Proofs.ByteCommands

open Sys2Proof.Machine

theorem exec_encb (data key : Byte) (s : State) :
    exec (.encb data key) s = s.whenIdle (.next (s.respond (mkRsp (encryptByte data key) .ok 0))) :=
  rfl

theorem exec_decb (data key : Byte) (s : State) :
    exec (.decb data key) s = s.whenIdle (.next (s.respond (mkRsp (decryptByte data key) .ok 0))) :=
  rfl

/-- A response made in IDLE: the fields that `Respond` writes (R19), and the frame. -/
theorem whenIdle_respond {s : State} (idle : s.st = .idle) (w : RspWord) :
    s.whenIdle (.next (s.respond w)) = .next { s with rspR := w, st := .resp } := by
  rw [State.whenIdle_idle idle, State.respond]

/-- Settles O19: the one response of R76, made in IDLE. -/
theorem encbResponds : Obligations.EncbResponds := fun data key s idle =>
  (exec_encb data key s).trans (whenIdle_respond idle _)

/-- Settles O20: the one response of R77, made in IDLE. -/
theorem decbResponds : Obligations.DecbResponds := fun data key s idle =>
  (exec_decb data key s).trans (whenIdle_respond idle _)

end Sys2Proof.Proofs.ByteCommands
end

section
/-! The stream engine's steps in the phases READ, WRITE and RESP (R92, R93, R95), and the transform that
READ applies (R96). What the counterpart's queue and the list of edges look like when a handshake has
completed is said once per port; the step of each answer is then the edge's law followed by the engine's. -/

namespace Sys2Proof.Proofs.StreamOps

open Sys2Proof.Machine

/-! ## The transform -/

@[simp] theorem xform_encrypt (b k : Byte) : xform 0 b k = encryptByte b k :=
  if_pos rfl

@[simp] theorem xform_decrypt (b k : Byte) : xform 1 b k = decryptByte b k :=
  if_neg (by decide)

/-- Settles O15: one equation of `xform` for each value of the mode bit. -/
theorem xformSelectsByMode : Obligations.XformSelectsByMode := by
  intro b k m
  constructor
  · rintro rfl
    exact xform_encrypt b k
  · rintro rfl
    exact xform_decrypt b k

/-! ## What a rising edge leaves of the agents' lists -/

/-- An agent whose edge is silent, or whose queue has run out, does not drive its acknowledge wire. -/
theorem ack_low {α : Type} {act : Bool} {queue : List α} (silent : act = false ∨ queue = []) :
    (act && !queue.isEmpty) = false := by
  rcases silent with rfl | rfl
  · rfl
  · exact Bool.and_false act

section Edges
variable {s : State} {e : Edge} {es : List Edge} (edges : s.edges = e :: es)
include edges

theorem passEdge_of_cons : s.passEdge = { s with edges := es } := by
  rw [State.passEdge, edges, List.tail_cons]

/-- SRC's answer has left its queue and is noted before the engine acts on it. -/
theorem takeRead_passEdge {x : SrcSample} {xs : List SrcSample} (src : s.src = x :: xs) (a : SrcAnswer) :
    takeRead a s.passEdge =
      State.onRead { s with edges := es, src := xs, trace := s.trace ++ [.read a] } a := by
  rw [takeRead, passEdge_of_cons edges, State.popSrc, src, List.tail_cons, State.record]

/-- SNK's answer to a write has left its queue and is noted before the engine acts on it. -/
theorem takeSink_write_passEdge {x : Bool} {xs : List Bool} (snk : s.snk = x :: xs) (b : Byte)
    (r : SnkAnswer) :
    takeSink false b r s.passEdge =
      State.onWrite { s with edges := es, snk := xs, trace := s.trace ++ [.write b r] } r := by
  rw [takeSink, if_neg Bool.false_ne_true, passEdge_of_cons edges, State.popSnk, snk, List.tail_cons,
    State.record]

end Edges

/-! ## The steps of the phases -/

/-- READ with SRC answering: the engine's action on the answer SRC's wires carry (R92). -/
theorem step_read_of_cons {s : State} {e : Edge} {es : List Edge} {x : SrcSample} {xs : List SrcSample}
    (phase : s.st = .read) (edges : s.edges = e :: es) (noReset : e.rst = false) (ack : e.srcAck = true)
    (src : s.src = x :: xs) :
    step s = .next (State.onRead
      { s with edges := es, src := xs, trace := s.trace ++ [.read x.answer] } x.answer) := by
  have head : s.edge = e := State.edge_cons edges
  rw [step_read_edge phase (head ▸ noReset) (head ▸ ack) src, takeRead_passEdge edges src]

/-- WRITE with SNK answering: the byte noted is OBUF, and the engine acts on the answer (R93). -/
theorem step_write_of_cons {s : State} {e : Edge} {es : List Edge} {x : Bool} {xs : List Bool}
    (phase : s.st = .write) (edges : s.edges = e :: es) (noReset : e.rst = false) (ack : e.snkAck = true)
    (snk : s.snk = x :: xs) :
    step s = .next (State.onWrite
      { s with edges := es, snk := xs, trace := s.trace ++ [.write s.obuf (snkAnswer x)] }
      (snkAnswer x)) := by
  have head : s.edge = e := State.edge_cons edges
  rw [step_write_edge phase (head ▸ noReset) (head ▸ ack) snk, takeSink_write_passEdge edges snk]

/-- Settles O27: one engine action per answer of SRC, and the bare edge where SRC gives none. -/
theorem readPhaseStep : Obligations.ReadPhaseStep := by
  intro s e es phase edges noReset
  have head : s.edge = e := State.edge_cons edges
  constructor
  · intro x xs ack src
    have taken := step_read_of_cons phase edges noReset ack src
    refine ⟨fun b answer => ?byte, fun answer => ?eos, fun answer => ?fault⟩
    case byte => rw [taken, answer, State.onRead_byte]
    case eos => rw [taken, answer, State.onRead_eos]
    case fault => rw [taken, answer, State.onRead_fault, State.raiseError, State.respond]
  · intro silent
    rw [step_read_wait phase (head ▸ noReset) (ack_low (head ▸ silent)), passEdge_of_cons edges]

/-- Settles O28: COUNT moves with `Ok` only, so the error response of `Fail` leaves the rejected byte out. -/
theorem writePhaseStep : Obligations.WritePhaseStep := by
  intro s e es phase edges noReset
  have head : s.edge = e := State.edge_cons edges
  refine ⟨fun xs ack snk => ?ok, fun xs ack snk => ?fail, fun silent => ?wait⟩
  case ok =>
    rw [step_write_of_cons phase edges noReset ack snk, snkAnswer_low, State.onWrite_ok]
  case fail =>
    rw [step_write_of_cons phase edges noReset ack snk, snkAnswer_high, State.onWrite_fail,
      State.raiseError, State.respond]
  case wait =>
    rw [step_sink_wait (.inl phase) (head ▸ noReset) (ack_low (head ▸ silent)), passEdge_of_cons edges]

/-- Settles O30: taking the response writes `st` alone, and an edge at which HOST does not take it only
passes. -/
theorem responseTaken : Obligations.ResponseTaken := by
  intro s e es phase edges noReset
  have head : s.edge = e := State.edge_cons edges
  refine ⟨fun ready => ?taken, fun notReady => ?wait⟩
  case taken =>
    rw [step_response_edge phase (head ▸ noReset) (head ▸ ready), passEdge_of_cons edges,
      State.takeResponse, State.record]
  case wait =>
    rw [step_resp_wait phase (head ▸ noReset) (head ▸ notReady), passEdge_of_cons edges]

end Sys2Proof.Proofs.StreamOps
end

section
/-! The exceptions the unit raises itself: an illegal word, settled at its acceptance (R113, R114), and the
reserved code on SRC's wires (R115). -/

namespace Sys2Proof.Proofs.Exceptions

open Sys2Proof.Machine Sys2Proof.Proofs.StreamOps

/-- IDLE with a command offered: the word has left HOST's queue and is noted before its meaning runs. -/
theorem step_command_of_cons {s : State} {e : Edge} {es : List Edge} {w : CmdWord} {ws : List CmdWord}
    (phase : s.st = .idle) (edges : s.edges = e :: es) (noReset : e.rst = false)
    (valid : e.cmdValid = true) (cmds : s.cmds = w :: ws) :
    step s = acceptCommand w { s with edges := es, cmds := ws, trace := s.trace ++ [.command w] } := by
  have head : s.edge = e := State.edge_cons edges
  rw [step_command_edge phase (head ▸ noReset) (head ▸ valid) cmds, passEdge_of_cons edges,
    State.popCmd, cmds, List.tail_cons, State.record]

/-- An illegal word runs no command: it is answered at once, whatever rule it breaks (R113). -/
theorem acceptCommand_of_illegal {w : CmdWord} {x : IllegalWord} (illegal : decode w = .error x)
    (s : State) : acceptCommand w s = .next s.illegalCommand := by
  rw [acceptCommand, illegal]

/-- The error response writes RSP_R and `st`, and the frame is everything else. -/
theorem illegalCommand_eq (s : State) :
    s.illegalCommand = { s with rspR := mkRsp 0x00 .illegalCommand 0, st := .resp } := by
  rw [State.illegalCommand, State.raiseError, State.respond]

/-- Settles O25: the word is taken, the decoder refuses it, and the error entry is all that follows. -/
theorem illegalCommandCompletes : Obligations.IllegalCommandCompletes := by
  intro s e es w ws x phase edges noReset valid cmds illegal
  rw [step_command_of_cons phase edges noReset valid cmds, acceptCommand_of_illegal illegal,
    illegalCommand_eq]

/-- Settles O31: the table of R34 with the reserved code of R115, one law of the model per code. -/
theorem sourceKindDecoded : Obligations.SourceKindDecoded := fun d =>
  ⟨SrcSample.answer_byte d, SrcSample.answer_eos d, SrcSample.answer_fault d,
    SrcSample.answer_reserved d⟩

end Sys2Proof.Proofs.Exceptions
end

section
/-! The command word as a layout of its five fields (R51), and the decoder read through that layout: what it
answers on every word is said once, and the facts about legal and illegal words follow from it. -/

namespace Sys2Proof.Proofs.Encoding

open Sys2Proof.Machine

/-! ## The layout -/

/-- A word from its fields, top first (R51). -/
def layout (rsv1 data key : Byte) (rsv0 opc : BitVec 4) : CmdWord := rsv1 ++ data ++ key ++ rsv0 ++ opc

section Fields
variable (rsv1 data key : Byte) (rsv0 opc : BitVec 4)

@[simp] theorem opcField_layout : opcField (layout rsv1 data key rsv0 opc) = opc :=
  BitVec.extractLsb'_append_eq_right

@[simp] theorem rsv0Field_layout : rsv0Field (layout rsv1 data key rsv0 opc) = rsv0 := by
  rw [rsv0Field, layout, BitVec.extractLsb'_append_eq_of_le (by decide)]
  exact BitVec.extractLsb'_append_eq_right

@[simp] theorem keyField_layout : keyField (layout rsv1 data key rsv0 opc) = key := by
  rw [keyField, layout, BitVec.extractLsb'_append_eq_of_le (by decide),
    BitVec.extractLsb'_append_eq_of_le (by decide)]
  exact BitVec.extractLsb'_append_eq_right

@[simp] theorem dataField_layout : dataField (layout rsv1 data key rsv0 opc) = data := by
  rw [dataField, layout, BitVec.extractLsb'_append_eq_of_le (by decide),
    BitVec.extractLsb'_append_eq_of_le (by decide), BitVec.extractLsb'_append_eq_of_le (by decide)]
  exact BitVec.extractLsb'_append_eq_right

@[simp] theorem rsv1Field_layout : rsv1Field (layout rsv1 data key rsv0 opc) = rsv1 := by
  rw [rsv1Field, layout, BitVec.extractLsb'_append_eq_of_le (by decide),
    BitVec.extractLsb'_append_eq_of_le (by decide), BitVec.extractLsb'_append_eq_of_le (by decide)]
  exact BitVec.extractLsb'_append_eq_left

end Fields

/-- The five fields make up the word: no bit lies outside them. -/
theorem layout_fields (w : CmdWord) :
    layout (rsv1Field w) (dataField w) (keyField w) (rsv0Field w) (opcField w) = w := by
  unfold layout rsv1Field dataField keyField rsv0Field opcField
  rw [BitVec.extractLsb'_append_extractLsb'_eq_extractLsb' (by rfl),
    BitVec.extractLsb'_append_extractLsb'_eq_extractLsb' (by rfl),
    BitVec.extractLsb'_append_extractLsb'_eq_extractLsb' (by rfl),
    BitVec.extractLsb'_append_extractLsb'_eq_extractLsb' (by rfl)]
  exact BitVec.extractLsb'_eq_self

/-- A word whose fields are given is the layout of them. -/
theorem eq_layout {w : CmdWord} {rsv1 data key : Byte} {rsv0 opc : BitVec 4} (h1 : rsv1Field w = rsv1)
    (hd : dataField w = data) (hk : keyField w = key) (h0 : rsv0Field w = rsv0) (ho : opcField w = opc) :
    w = layout rsv1 data key rsv0 opc := by
  rw [← layout_fields w, h1, hd, hk, h0, ho]

theorem encode_encb (data key : Byte) : encode (.encb data key) = layout 0 data key 0 0 := rfl
theorem encode_decb (data key : Byte) : encode (.decb data key) = layout 0 data key 0 1 := rfl
theorem encode_encs (key : Byte) : encode (.encs key) = layout 0 0 key 0 2 := rfl
theorem encode_decs (key : Byte) : encode (.decs key) = layout 0 0 key 0 3 := rfl

/-! ## Decoding an encoded command -/

@[simp] theorem decode_encode (i : Instr) : decode (encode i) = .ok i := by
  cases i with
  | encb data key => simp [encode_encb, decode]
  | decb data key => simp [encode_decb, decode]
  | encs key => simp [encode_encs, decode]
  | decs key => simp [encode_decs, decode]

theorem encode_injective : Function.Injective encode := by
  intro i j same
  have decoded : decode (encode i) = decode (encode j) := congrArg decode same
  rw [decode_encode, decode_encode] at decoded
  exact Except.ok.inj decoded

/-- The four bytes of a word, put together again, are the word (R35). -/
@[simp] theorem wordOfBytes_bytesOfWord (w : CmdWord) : wordOfBytes (bytesOfWord w) = some w := by
  rw [bytesOfWord, wordOfBytes, BitVec.extractLsb'_append_extractLsb'_eq_extractLsb' (by rfl),
    BitVec.extractLsb'_append_extractLsb'_eq_extractLsb' (by rfl),
    BitVec.extractLsb'_append_extractLsb'_eq_extractLsb' (by rfl)]
  exact congrArg some BitVec.extractLsb'_eq_self

@[simp] theorem decodeBytes_bytesOfWord (w : CmdWord) : decodeBytes (bytesOfWord w) = decode w := by
  rw [decodeBytes, wordOfBytes_bytesOfWord]

/-- Settles O1: the decoder reads back the fields that the encoder laid out. -/
theorem decodeEncodeAgree : Obligations.DecodeEncodeAgree := fun i _ =>
  ⟨decode_encode i, (decodeBytes_bytesOfWord _).trans (decode_encode i)⟩

/-! ## All that decoding can answer -/

/-- The four outcomes of R56, each with the fields that lead to it. -/
theorem decode_cases (w : CmdWord) :
    ((rsv0Field w ≠ 0 ∨ rsv1Field w ≠ 0) ∧ decode w = .error .reservedBits)
    ∨ (4 ≤ (opcField w).toNat ∧ decode w = .error .reservedOpcode)
    ∨ (((opcField w).toNat = 2 ∨ (opcField w).toNat = 3) ∧ dataField w ≠ 0 ∧
        decode w = .error .streamData)
    ∨ ∃ i, w = encode i := by
  by_cases reserved : rsv0Field w ≠ 0 ∨ rsv1Field w ≠ 0
  · exact .inl ⟨reserved, by rw [decode, if_pos reserved]⟩
  have ⟨rsv0, rsv1⟩ : rsv0Field w = 0 ∧ rsv1Field w = 0 := by simpa using reserved
  have opc_eq {c : BitVec 4} (h : (opcField w).toNat = c.toNat) : opcField w = c := BitVec.eq_of_toNat_eq h
  refine .inr ?_
  match opc : (opcField w).toNat with
  | 0 => exact .inr (.inr ⟨.encb _ _, eq_layout rsv1 rfl rfl rsv0 (opc_eq opc)⟩)
  | 1 => exact .inr (.inr ⟨.decb _ _, eq_layout rsv1 rfl rfl rsv0 (opc_eq opc)⟩)
  | 2 =>
    by_cases data : dataField w = 0
    · exact .inr (.inr ⟨.encs _, eq_layout rsv1 data rfl rsv0 (opc_eq opc)⟩)
    · exact .inr (.inl ⟨.inl rfl, data, by simpa [decode, rsv0, rsv1, opc] using data⟩)
  | 3 =>
    by_cases data : dataField w = 0
    · exact .inr (.inr ⟨.decs _, eq_layout rsv1 data rfl rsv0 (opc_eq opc)⟩)
    · exact .inr (.inl ⟨.inr rfl, data, by simpa [decode, rsv0, rsv1, opc] using data⟩)
  | n + 4 => exact .inl ⟨by omega, by simp [decode, rsv0, rsv1, opc]⟩

/-- A word decodes to a command exactly where it is that command's word. -/
theorem decode_eq_ok_iff {w : CmdWord} {i : Instr} : decode w = .ok i ↔ w = encode i := by
  constructor
  · intro decoded
    rcases decode_cases w with ⟨-, e⟩ | ⟨-, e⟩ | ⟨-, -, e⟩ | ⟨j, rfl⟩
    · cases e.symm.trans decoded
    · cases e.symm.trans decoded
    · cases e.symm.trans decoded
    · rw [decode_encode] at decoded
      rw [Except.ok.inj decoded]
  · rintro rfl
    exact decode_encode i

/-- Each command is well formed: its operands are 8-bit fields (R53, R54). -/
theorem wellFormed_all (i : Instr) : i.wellFormed = true := by
  cases i <;> rfl

/-- Settles O2: a word that decodes is the layout of its own fields. -/
theorem encodeDecodeAgree : Obligations.EncodeDecodeAgree := fun _ i decoded =>
  ⟨wellFormed_all i, (decode_eq_ok_iff.mp decoded).symm⟩

/-- A command's word meets none of the three conditions of R57. -/
theorem encode_legal (i : Instr) :
    rsv0Field (encode i) = 0 ∧ rsv1Field (encode i) = 0 ∧ (opcField (encode i)).toNat < 4 ∧
    ((opcField (encode i)).toNat < 2 ∨ dataField (encode i) = 0) := by
  cases i with
  | encb data key => simp [encode_encb]
  | decb data key => simp [encode_decb]
  | encs key => simp [encode_encs]
  | decs key => simp [encode_decs]

/-- A word is illegal exactly where no command has it. -/
theorem decode_error_iff {w : CmdWord} : (∃ x, decode w = .error x) ↔ ∀ i, w ≠ encode i := by
  constructor
  · rintro ⟨x, e⟩ i rfl
    cases e.symm.trans (decode_encode i)
  · intro none
    rcases decode_cases w with ⟨-, e⟩ | ⟨-, e⟩ | ⟨-, -, e⟩ | ⟨i, own⟩
    · exact ⟨_, e⟩
    · exact ⟨_, e⟩
    · exact ⟨_, e⟩
    · exact absurd own (none i)

/-- Settles O4: the decoder's refusals carry their conditions, and a command's word meets none of them. -/
theorem illegalWordsExactly : Obligations.IllegalWordsExactly := by
  intro w
  change _ ↔ (rsv0Field w ≠ 0 ∨ rsv1Field w ≠ 0) ∨ 4 ≤ (opcField w).toNat ∨
    (((opcField w).toNat = 2 ∨ (opcField w).toNat = 3) ∧ dataField w ≠ 0)
  rcases decode_cases w with ⟨h, e⟩ | ⟨h, e⟩ | ⟨h, hd, e⟩ | ⟨i, rfl⟩
  · exact iff_of_true ⟨_, e⟩ (.inl h)
  · exact iff_of_true ⟨_, e⟩ (.inr (.inl h))
  · exact iff_of_true ⟨_, e⟩ (.inr (.inr ⟨h, hd⟩))
  · obtain ⟨rsv0, rsv1, opc, data⟩ := encode_legal i
    refine iff_of_false (fun illegal => decode_error_iff.mp illegal i rfl) ?_
    rintro ((h | h) | h | ⟨h, hd⟩)
    · exact h rsv0
    · exact h rsv1
    · omega
    · exact hd (data.resolve_left (by omega))

/-! ## The opcode map -/

/-- Under a mask that admits a whole field, the match value carries the word's own field. -/
theorem field_of_mask {w m v : CmdWord} (row : w &&& m = v) (start len : Nat)
    (admits : m.extractLsb' start len = BitVec.allOnes len) :
    w.extractLsb' start len = v.extractLsb' start len := by
  rw [← row, BitVec.extractLsb'_and, admits, BitVec.and_allOnes]

/-- Settles O3: from a row's mask and match the fields follow one by one, and a command's word meets its
row. -/
theorem opcodeMapDecides : Obligations.OpcodeMapDecides := by
  intro w
  simp only [decode_eq_ok_iff]
  refine ⟨⟨fun row => ?encb, fun own => own ▸ Laws.TableRow.encb _ _⟩,
    ⟨fun row => ?decb, fun own => own ▸ Laws.TableRow.decb _ _⟩,
    ⟨fun row => ?encs, fun own => own ▸ Laws.TableRow.encs _⟩,
    ⟨fun row => ?decs, fun own => own ▸ Laws.TableRow.decs _⟩⟩
  case encb =>
    exact eq_layout (field_of_mask row 24 8 rfl) rfl rfl (field_of_mask row 4 4 rfl)
      (field_of_mask row 0 4 rfl)
  case decb =>
    exact eq_layout (field_of_mask row 24 8 rfl) rfl rfl (field_of_mask row 4 4 rfl)
      (field_of_mask row 0 4 rfl)
  case encs =>
    exact eq_layout (field_of_mask row 24 8 rfl) (field_of_mask row 16 8 rfl) rfl
      (field_of_mask row 4 4 rfl) (field_of_mask row 0 4 rfl)
  case decs =>
    exact eq_layout (field_of_mask row 24 8 rfl) (field_of_mask row 16 8 rfl) rfl
      (field_of_mask row 4 4 rfl) (field_of_mask row 0 4 rfl)

/-! ## How many words are legal -/

@[simp] theorem card_bitVec (n : Nat) : Nat.card (BitVec n) = 2 ^ n := by
  rw [Nat.card_congr BitVec.equivFin.toEquiv, Nat.card_fin]

/-- The words of a two-operand command: one for each pair of operands. -/
theorem ncard_two_operands {f : Byte → Byte → Instr} (inj : Function.Injective2 f) :
    {w : CmdWord | ∃ d k, decode w = .ok (f d k)}.ncard = 2 ^ 16 := by
  have range : {w : CmdWord | ∃ d k, decode w = .ok (f d k)} =
      Set.range (encode ∘ Function.uncurry f) := by
    ext w
    simp [decode_eq_ok_iff, @eq_comm _ w]
  rw [range, Set.ncard_range_of_injective (encode_injective.comp inj.uncurry),
    Nat.card_prod, card_bitVec]
  rfl

/-- The words of a one-operand command: one for each value of its operand. -/
theorem ncard_one_operand {f : Byte → Instr} (inj : Function.Injective f) :
    {w : CmdWord | ∃ k, decode w = .ok (f k)}.ncard = 2 ^ 8 := by
  have range : {w : CmdWord | ∃ k, decode w = .ok (f k)} = Set.range (encode ∘ f) := by
    ext w
    simp [decode_eq_ok_iff, @eq_comm _ w]
  rw [range, Set.ncard_range_of_injective (encode_injective.comp inj), card_bitVec]

/-- A command is one of two pairs of operands or one of two keys. -/
def instrEquiv : Instr ≃ ((Byte × Byte) ⊕ (Byte × Byte)) ⊕ (Byte ⊕ Byte) where
  toFun
    | .encb data key => .inl (.inl (data, key))
    | .decb data key => .inl (.inr (data, key))
    | .encs key => .inr (.inl key)
    | .decs key => .inr (.inr key)
  invFun
    | .inl (.inl (data, key)) => .encb data key
    | .inl (.inr (data, key)) => .decb data key
    | .inr (.inl key) => .encs key
    | .inr (.inr key) => .decs key
  left_inv i := by cases i <;> rfl
  right_inv x := by rcases x with (⟨_, _⟩ | ⟨_, _⟩) | (_ | _) <;> rfl

theorem card_instr : Nat.card Instr = 2 ^ 17 + 2 ^ 9 := by
  rw [Nat.card_congr instrEquiv, Nat.card_sum, Nat.card_sum, Nat.card_sum, Nat.card_prod, card_bitVec]
  rfl

/-- The illegal words are those that the commands leave over. -/
theorem ncard_illegal : {w : CmdWord | ∃ x, decode w = .error x}.ncard = 2 ^ 32 - 2 ^ 17 - 2 ^ 9 := by
  have rest : {w : CmdWord | ∃ x, decode w = .error x} = (Set.range encode)ᶜ := by
    ext w
    simp [decode_error_iff, @eq_comm _ w]
  rw [rest, Set.ncard_compl, Set.ncard_range_of_injective encode_injective, card_instr, card_bitVec,
    Nat.sub_sub]

/-- Settles O5: encoding is injective, so each command has as many words as it has operands. -/
theorem legalWordCounts : Obligations.LegalWordCounts :=
  ⟨ncard_two_operands fun _ _ _ _ => Instr.encb.inj, ncard_two_operands fun _ _ _ _ => Instr.decb.inj,
    ncard_one_operand fun _ _ => Instr.encs.inj, ncard_one_operand fun _ _ => Instr.decs.inj, ncard_illegal⟩

/-! ## Bytes -/

/-- The eight bytes of a response word, put together again, are the word (R35). -/
@[simp] theorem rspOfBytes_bytesOfRsp (r : RspWord) : rspOfBytes (bytesOfRsp r) = some r := by
  rw [bytesOfRsp, rspOfBytes, BitVec.extractLsb'_append_extractLsb'_eq_extractLsb' (by rfl),
    BitVec.extractLsb'_append_extractLsb'_eq_extractLsb' (by rfl),
    BitVec.extractLsb'_append_extractLsb'_eq_extractLsb' (by rfl),
    BitVec.extractLsb'_append_extractLsb'_eq_extractLsb' (by rfl),
    BitVec.extractLsb'_append_extractLsb'_eq_extractLsb' (by rfl),
    BitVec.extractLsb'_append_extractLsb'_eq_extractLsb' (by rfl),
    BitVec.extractLsb'_append_extractLsb'_eq_extractLsb' (by rfl)]
  exact congrArg some BitVec.extractLsb'_eq_self

theorem getElem?_bytesOfWord (w : CmdWord) (p : Nat) (h : p < 4) :
    (bytesOfWord w)[p]? = some (w.extractLsb' (8 * p) 8) := by
  interval_cases p <;> rfl

theorem getElem?_bytesOfRsp (r : RspWord) (p : Nat) (h : p < 8) :
    (bytesOfRsp r)[p]? = some (r.extractLsb' (8 * p) 8) := by
  interval_cases p <;> rfl

/-- Exactly the lists of four bytes are command words. -/
theorem length_eq_four_iff (bs : List Byte) : bs.length = 4 ↔ ∃ w, wordOfBytes bs = some w := by
  constructor
  · intro four
    match bs, four with
    | [b0, b1, b2, b3], _ => exact ⟨_, rfl⟩
  · rintro ⟨w, h⟩
    unfold wordOfBytes at h
    split at h
    · rfl
    · cases h

/-- Exactly the lists of eight bytes are response words. -/
theorem length_eq_eight_iff (bs : List Byte) : bs.length = 8 ↔ ∃ r, rspOfBytes bs = some r := by
  constructor
  · intro eight
    match bs, eight with
    | [b0, b1, b2, b3, b4, b5, b6, b7], _ => exact ⟨_, rfl⟩
  · rintro ⟨r, h⟩
    unfold rspOfBytes at h
    split at h
    · rfl
    · cases h

theorem decodeBytes_of_length_ne (bs : List Byte) (h : bs.length ≠ 4) :
    decodeBytes bs = .error .notOneWord := by
  cases word : wordOfBytes bs with
  | none => rw [decodeBytes, word]
  | some w => exact absurd ((length_eq_four_iff bs).mpr ⟨w, word⟩) h

/-- Settles O6: joining the bytes undoes taking them apart, and the length alone decides what is a word. -/
theorem bytesLittleEndian : Obligations.BytesLittleEndian :=
  ⟨wordOfBytes_bytesOfWord, getElem?_bytesOfWord, rspOfBytes_bytesOfRsp, getElem?_bytesOfRsp,
    length_eq_eight_iff, length_eq_four_iff, decodeBytes_of_length_ne⟩

/-- Settles O7: each legal word of the table is the word of its command, and in each illegal one a field
is out of place. -/
theorem sampleWordsDecode : Obligations.SampleWordsDecode :=
  ⟨decode_encode (.encb 0x01 0x00), decode_encode (.decb 0x04 0x00), decode_encode (.encs 0xFF),
    decode_encode (.decs 0x05), ⟨.reservedBits, rfl⟩, ⟨.streamData, rfl⟩⟩

/-! ## The assembler -/

/-- The number that fields laid out below `RSV1` = 0 and above `RSV0` = 0 amount to. -/
theorem toNat_layout (data key : Byte) (opc : BitVec 4) :
    (layout 0 data key 0 opc).toNat = data.toNat * 2 ^ 16 + key.toNat * 2 ^ 8 + opc.toNat := by
  unfold layout
  simp only [BitVec.toNat_append]
  rw [← Nat.shiftLeft_add_eq_or_of_lt data.isLt, ← Nat.shiftLeft_add_eq_or_of_lt key.isLt,
    ← Nat.shiftLeft_add_eq_or_of_lt (0 : BitVec 4).isLt, ← Nat.shiftLeft_add_eq_or_of_lt opc.isLt]
  simp only [Nat.shiftLeft_eq, BitVec.toNat_ofNat, BitVec.ofNat_eq_ofNat]
  omega

/-- Literals in range are laid out as the sum of their shifted values, which is R62's word. -/
theorem layout_ofNat {data key : Nat} (hd : data ≤ 255) (hk : key ≤ 255) (opc : BitVec 4) :
    layout 0 (BitVec.ofNat 8 data) (BitVec.ofNat 8 key) 0 opc =
      BitVec.ofNat 32 (data * 2 ^ 16 + key * 2 ^ 8 + opc.toNat) := by
  apply BitVec.eq_of_toNat_eq
  have := opc.isLt
  rw [toNat_layout, BitVec.toNat_ofNat, BitVec.toNat_ofNat, BitVec.toNat_ofNat]
  omega

/-- A statement that is not well formed gives no word. -/
theorem assemble_of_not_wellFormed {x : Source} (h : x.wellFormed = false) : assemble x = none := by
  simp [assemble, h]

@[simp] theorem literalOk_of_le {n : Nat} (h : n ≤ 255) : literalOk n = true := decide_eq_true h
@[simp] theorem literalOk_of_lt {n : Nat} (h : 255 < n) : literalOk n = false :=
  decide_eq_false (Nat.not_le.mpr h)

section Statements
variable {data key : Nat}

theorem assemble_encb (hd : data ≤ 255) (hk : key ≤ 255) :
    assemble (.encb data key) = some (BitVec.ofNat 32 (data * 2 ^ 16 + key * 2 ^ 8 + 0)) := by
  rw [assemble, if_pos (by simp [Source.wellFormed, hd, hk])]
  exact congrArg some (layout_ofNat hd hk 0)

theorem assemble_decb (hd : data ≤ 255) (hk : key ≤ 255) :
    assemble (.decb data key) = some (BitVec.ofNat 32 (data * 2 ^ 16 + key * 2 ^ 8 + 1)) := by
  rw [assemble, if_pos (by simp [Source.wellFormed, hd, hk])]
  exact congrArg some (layout_ofNat hd hk 1)

theorem assemble_encs (hk : key ≤ 255) :
    assemble (.encs key) = some (BitVec.ofNat 32 (key * 2 ^ 8 + 2)) := by
  rw [assemble, if_pos (by simp [Source.wellFormed, hk])]
  exact congrArg some ((layout_ofNat (Nat.zero_le 255) hk 2).trans (by rw [Nat.zero_mul, Nat.zero_add]; rfl))

theorem assemble_decs (hk : key ≤ 255) :
    assemble (.decs key) = some (BitVec.ofNat 32 (key * 2 ^ 8 + 3)) := by
  rw [assemble, if_pos (by simp [Source.wellFormed, hk])]
  exact congrArg some ((layout_ofNat (Nat.zero_le 255) hk 3).trans (by rw [Nat.zero_mul, Nat.zero_add]; rfl))

/-- PERMB is ENCB with key 0, in range or not (R63). -/
theorem assemble_permb (data : Nat) : assemble (.permb data) = assemble (.encb data 0) := by
  simp [assemble, Source.wellFormed, literalOk]

/-- IPERMB is DECB with key 0, in range or not (R63). -/
theorem assemble_ipermb (data : Nat) : assemble (.ipermb data) = assemble (.decb data 0) := by
  simp [assemble, Source.wellFormed, literalOk]

theorem assemble_word {w : Nat} (h : w < 2 ^ 32) : assemble (.word w) = some (BitVec.ofNat 32 w) := by
  rw [assemble, if_pos (by simpa [Source.wellFormed] using h)]

/-- One literal out of range is enough for the refusal. -/
theorem two_literals_refused (h : 255 < data ∨ 255 < key) : (literalOk data && literalOk key) = false := by
  rcases h with h | h
  · rw [literalOk_of_lt h, Bool.false_and]
  · rw [literalOk_of_lt h, Bool.and_false]

end Statements

/-- Settles O8: in range the literals are the fields of the word, out of range the statement is not well
formed. -/
theorem assemblerWords : Obligations.AssemblerWords := by
  intro data key w
  refine ⟨fun hd hk => ⟨assemble_encb hd hk, assemble_decb hd hk, assemble_encs hk, assemble_decs hk,
    assemble_permb data, assemble_ipermb data⟩, assemble_word, fun h => ?two, fun h => ?keys,
    fun h => ?perms, fun h => ?raw⟩
  case two =>
    exact ⟨assemble_of_not_wellFormed (two_literals_refused h),
      assemble_of_not_wellFormed (two_literals_refused h)⟩
  case keys =>
    exact ⟨assemble_of_not_wellFormed (literalOk_of_lt h), assemble_of_not_wellFormed (literalOk_of_lt h)⟩
  case perms =>
    exact ⟨assemble_of_not_wellFormed (literalOk_of_lt h), assemble_of_not_wellFormed (literalOk_of_lt h)⟩
  case raw =>
    exact assemble_of_not_wellFormed (decide_eq_false (Nat.not_lt.mpr h))

end Sys2Proof.Proofs.Encoding
end

section
/-! The laws of the byte transform (R70, R71, R78, R80). A byte is its eight bits, and every bit of a permuted
byte stands at a destination of PTABLE; so each law is read off bit by bit from what the two permutations and
XOR do to one bit, and a law about repetition from the cycles of PTABLE. -/

namespace Sys2Proof.Proofs.PermLaws

open Sys2Proof.Machine Sys2Proof.Proofs.Bits Sys2Proof.Proofs.Ptable Sys2Proof.Proofs.Transform

/-! ## A byte is its bits -/

theorem byte_ext {x y : Byte} (h : ∀ p, bit x p = bit y p) : x = y := by
  apply BitVec.eq_of_getLsbD_eq
  intro i hi
  have same := h ⟨i, hi⟩
  rw [bit_eq_ofBool_getLsbD, bit_eq_ofBool_getLsbD] at same
  exact BitVec.ofBool_eq_iff_eq.mp same

/-- As each position is a destination, it is enough to compare the bits there. -/
theorem byte_ext_dst {x y : Byte} (h : ∀ s, bit x (dst s) = bit y (dst s)) : x = y :=
  byte_ext (dst_bijective.surjective.forall.mpr h)

theorem bit_zero (p : Fin 8) : bit 0x00 p = 0 := by
  revert p
  decide

/-- A read bit as the model's decoder would cut it out. -/
theorem bit_eq_extractLsb' (x : Byte) (p : Fin 8) : bit x p = x.extractLsb' p 1 := by
  rw [bit_eq_ofBool_getLsbD]
  apply BitVec.eq_of_getLsbD_eq
  intro i hi
  obtain rfl : i = 0 := by omega
  simp

/-- The eight bits of a byte, top first, make up the byte. -/
theorem append_bits (x : Byte) :
    bit x 7 ++ bit x 6 ++ bit x 5 ++ bit x 4 ++ bit x 3 ++ bit x 2 ++ bit x 1 ++ bit x 0 = x := by
  simp only [bit_eq_extractLsb']
  rw [BitVec.extractLsb'_append_extractLsb'_eq_extractLsb' (by rfl),
    BitVec.extractLsb'_append_extractLsb'_eq_extractLsb' (by rfl),
    BitVec.extractLsb'_append_extractLsb'_eq_extractLsb' (by rfl),
    BitVec.extractLsb'_append_extractLsb'_eq_extractLsb' (by rfl),
    BitVec.extractLsb'_append_extractLsb'_eq_extractLsb' (by rfl),
    BitVec.extractLsb'_append_extractLsb'_eq_extractLsb' (by rfl),
    BitVec.extractLsb'_append_extractLsb'_eq_extractLsb' (by rfl)]
  exact BitVec.extractLsb'_eq_self

/-! ## Closed forms and inverses -/

theorem perm_closed_form (x : Byte) :
    perm x = bit x 4 ++ bit x 3 ++ bit x 7 ++ bit x 2 ++ bit x 1 ++ bit x 0 ++ bit x 6 ++ bit x 5 := by
  rw [← bit_perm_dst x 4, ← bit_perm_dst x 3, ← bit_perm_dst x 7, ← bit_perm_dst x 2,
    ← bit_perm_dst x 1, ← bit_perm_dst x 0, ← bit_perm_dst x 6, ← bit_perm_dst x 5]
  exact (append_bits (perm x)).symm

theorem permInv_closed_form (x : Byte) :
    permInv x =
      bit x 5 ++ bit x 1 ++ bit x 0 ++ bit x 7 ++ bit x 6 ++ bit x 4 ++ bit x 3 ++ bit x 2 := by
  rw [← append_bits (permInv x)]
  simp only [bit_permInv]
  rfl

/-- Settles O13: both permutations taken apart into bits, each of them traced to its source. -/
theorem permClosedForms : Obligations.PermClosedForms := fun x =>
  ⟨perm_closed_form x, permInv_closed_form x⟩

@[simp] theorem permInv_perm (x : Byte) : permInv (perm x) = x :=
  byte_ext fun s => by rw [bit_permInv, bit_perm_dst]

@[simp] theorem perm_permInv (x : Byte) : perm (permInv x) = x :=
  byte_ext_dst fun s => by rw [bit_perm_dst, bit_permInv]

@[simp] theorem decryptByte_encryptByte (b k : Byte) : decryptByte (encryptByte b k) k = b := by
  rw [decryptByte, encryptByte, permInv_perm, BitVec.xor_assoc, BitVec.xor_self, BitVec.xor_zero]

@[simp] theorem encryptByte_decryptByte (b k : Byte) : encryptByte (decryptByte b k) k = b := by
  rw [encryptByte, decryptByte, BitVec.xor_assoc, BitVec.xor_self, BitVec.xor_zero, perm_permInv]

/-- Settles O16: the permutations are inverse, and the key cancels itself. -/
theorem decryptInvertsEncrypt : Obligations.DecryptInvertsEncrypt := fun b k =>
  ⟨decryptByte_encryptByte b k, encryptByte_decryptByte b k⟩

/-! ## Linearity and complement -/

@[simp] theorem perm_xor (x y : Byte) : perm (x ^^^ y) = perm x ^^^ perm y :=
  byte_ext_dst fun s => by simp only [bit_perm_dst, bit_xor]

theorem perm_zero : perm 0x00 = 0x00 := by decide
theorem perm_ones : perm 0xFF = 0xFF := by decide

/-- Complement is XOR with 0xFF, which `P` fixes. -/
theorem perm_not (x : Byte) : perm (~~~x) = ~~~perm x := by
  have complement (y : Byte) : ~~~y = y ^^^ 0xFF := BitVec.xor_allOnes.symm
  rw [complement, perm_xor, perm_ones, ← complement]

/-! ## The number of one bits -/

theorem positions_map_dst_perm : (positions.map dst).Perm positions := by decide

/-- The destinations are the positions in another order, and at each stands the bit of its source. -/
theorem ones_perm (x : Byte) :
    (positions.filter (fun p => bit (perm x) p == 1)).length =
      (positions.filter (fun p => bit x p == 1)).length := by
  have moved : (fun p => bit (perm x) p == 1) ∘ dst = fun p => bit x p == 1 := by
    funext s
    simp
  rw [← (positions_map_dst_perm.filter _).length_eq, List.filter_map, List.length_map, moved]

/-! ## Order -/

/-- Repeating `P` sends each bit along the cycle of its position in PTABLE. -/
theorem bit_iterate_perm (n : Nat) (x : Byte) (s : Fin 8) : bit (perm^[n] x) (dst^[n] s) = bit x s := by
  induction n with
  | zero => rfl
  | succ n ih => rw [Function.iterate_succ_apply', Function.iterate_succ_apply', bit_perm_dst, ih]

/-- The cycles of PTABLE have lengths 5 and 3. -/
theorem iterate_dst_fifteen (s : Fin 8) : dst^[15] s = s := by
  revert s
  decide

theorem iterate_dst_moves : ∀ n : Fin 15, 0 < n → ∃ s : Fin 8, dst^[n.val] s ≠ s := by decide

theorem iterate_perm_fifteen (x : Byte) : perm^[15] x = x :=
  byte_ext fun s => by simpa only [iterate_dst_fifteen] using bit_iterate_perm 15 x s

/-- Where a position has not come round yet, the byte with a one bit there alone has not either. -/
theorem iterate_perm_moves {n : Nat} (pos : 0 < n) (lt : n < 15) : ∃ x : Byte, perm^[n] x ≠ x := by
  obtain ⟨s, moves⟩ := iterate_dst_moves ⟨n, lt⟩ pos
  refine ⟨setbit 0x00 s 1, fun fixed => ?_⟩
  have one : bit (setbit 0x00 s 1) (dst^[n] s) = 1 := by
    rw [← fixed, bit_iterate_perm, bit_setbit_same]
  rw [bit_setbit_of_ne moves, bit_zero] at one
  exact absurd one (by decide)

/-! ## Fixed points -/

/-- A fixed byte is constant along each of the two cycles of PTABLE: two bits determine it. -/
theorem perm_eq_self_iff (x : Byte) : perm x = x ↔ x = 0x00 ∨ x = 0x4A ∨ x = 0xB5 ∨ x = 0xFF := by
  constructor
  · intro fixed
    have along (s : Fin 8) : bit x (dst s) = bit x s := by simpa [fixed] using bit_perm_dst x s
    have b2 : bit x 2 = bit x 0 := along 0
    have b4 : bit x 4 = bit x 0 := (along 2).trans b2
    have b7 : bit x 7 = bit x 0 := (along 4).trans b4
    have b5 : bit x 5 = bit x 0 := (along 7).trans b7
    have b3 : bit x 3 = bit x 1 := along 1
    have b6 : bit x 6 = bit x 1 := (along 3).trans b3
    rw [← append_bits x, b2, b3, b4, b5, b6, b7]
    generalize bit x 0 = a
    generalize bit x 1 = b
    revert a b
    decide
  · rintro (rfl | rfl | rfl | rfl) <;> decide

/-- Settles O17: bit by bit for the laws that hold of all bytes; by the cycles of PTABLE for the order and
the fixed points. -/
theorem permutationLaws : Obligations.PermutationLaws :=
  ⟨perm_xor, perm_xor, perm_not, perm_zero, perm_ones, ones_perm, iterate_perm_fifteen,
    fun _ => iterate_perm_moves, perm_eq_self_iff, by decide⟩

end Sys2Proof.Proofs.PermLaws
end

section
/-! The acceptance of commands (R57, R90, R91, R101, R137): what `exec` answers for each stream command, and
which words start one. -/

namespace Sys2Proof.Proofs.Acceptance

open Sys2Proof.Machine Sys2Proof.Proofs.Encoding Sys2Proof.Proofs.Exceptions

theorem exec_encs (key : Byte) (s : State) :
    exec (.encs key) s = s.whenIdle (s.unlessAliased (.next (s.startStream 0 key))) :=
  rfl

theorem exec_decs (key : Byte) (s : State) :
    exec (.decs key) s = s.whenIdle (s.unlessAliased (.next (s.startStream 1 key))) :=
  rfl

/-- Settles O21: the guards of IDLE and of the binding let the start of the stream through. -/
theorem encsStarts : Obligations.EncsStarts := by
  intro key s idle apart
  rw [exec_encs, State.whenIdle_idle idle, State.unlessAliased_apart apart, State.startStream]

/-- Settles O22: the guards of IDLE and of the binding let the start of the stream through. -/
theorem decsStarts : Obligations.DecsStarts := by
  intro key s idle apart
  rw [exec_decs, State.whenIdle_idle idle, State.unlessAliased_apart apart, State.startStream]

/-- In IDLE an aliased binding stops the stream command of either mode. -/
theorem exec_streamInstr_aliased {s : State} (idle : s.st = .idle) (aliased : s.aliased = true)
    (m : BitVec 1) (k : Byte) : exec (streamInstr m k) s = .refused .aliasedStreams := by
  unfold streamInstr
  split
  · rw [exec_encs, State.whenIdle_idle idle, State.unlessAliased_aliased aliased]
  · rw [exec_decs, State.whenIdle_idle idle, State.unlessAliased_aliased aliased]

/-- Settles O23: ENCS and DECS are the stream commands of modes 0 and 1. -/
theorem aliasedStreamRefused : Obligations.AliasedStreamRefused := fun key _ idle aliased =>
  ⟨exec_streamInstr_aliased idle aliased 0 key, exec_streamInstr_aliased idle aliased 1 key⟩

/-- Settles O24: of all that a command can do, only waiting happens outside IDLE. -/
theorem busyUnitTakesNoCommand : Obligations.BusyUnitTakesNoCommand := by
  intro i s busy
  rcases exec_cases i s with ⟨-, waits⟩ | ⟨idle, -⟩ | ⟨idle, -⟩ | ⟨idle, -⟩
  · exact waits
  · exact absurd idle busy
  · exact absurd idle busy
  · exact absurd idle busy

/-- Taking a legal word is running its command. -/
theorem acceptCommand_of_legal {w : CmdWord} {i : Instr} (legal : decode w = .ok i) (s : State) :
    acceptCommand w s = exec i s := by
  rw [acceptCommand, legal]

/-- Settles O26: the word is taken, and its command runs on what the edge leaves. -/
theorem stepRunsDecodedCommand : Obligations.StepRunsDecodedCommand := by
  intro s e es w ws i phase edges noReset valid cmds legal _
  rw [step_command_of_cons phase edges noReset valid cmds, acceptCommand_of_legal legal]

theorem mode_cases (m : BitVec 1) : m = 0 ∨ m = 1 := by
  revert m
  decide

/-- The words that start a stream command are those of the two stream commands, one for each mode. -/
theorem startsStream_iff {w : CmdWord} {m : BitVec 1} {k : Byte} :
    StartsStream w m k ↔ w = encode (streamInstr m k) := by
  rw [StartsStream, decode_eq_ok_iff, decode_eq_ok_iff]
  rcases mode_cases m with rfl | rfl
  · simp [streamInstr]
  · simp [streamInstr]

end Sys2Proof.Proofs.Acceptance
end

section
/-! The ports at one rising edge (R34): which handshake completes, and the cases of the edge with the one in
which nothing completes. A proof about every step splits along `EdgeCase`. -/

namespace Sys2Proof.Proofs.Handshakes

open Sys2Proof.Machine Sys2Proof.Proofs.StreamOps Sys2Proof.Proofs.Acceptance Sys2Proof.Proofs.Encoding

/-! ## When each handshake completes -/

@[simp] theorem ports_rst (s : State) : (ports s).rst = s.edge.rst := rfl

theorem commandDone_iff (s : State) : (ports s).commandDone = true ↔
    s.edge.rst = false ∧ s.st = .idle ∧ s.edge.cmdValid = true ∧ s.cmds ≠ [] := by
  cases rst : s.edge.rst <;> simp [Ports.commandDone, ports, rst, and_comm]

theorem responseDone_iff (s : State) : (ports s).responseDone = true ↔
    s.edge.rst = false ∧ s.st = .resp ∧ s.edge.rspReady = true := by
  simp [Ports.responseDone, ports]

theorem readDone_iff (s : State) : (ports s).readDone = true ↔
    s.edge.rst = false ∧ s.st = .read ∧ s.edge.srcAck = true ∧ s.src ≠ [] := by
  simp [Ports.readDone, ports]

theorem sinkDone_iff (s : State) : (ports s).sinkDone = true ↔
    s.edge.rst = false ∧ (s.st = .write ∨ s.st = .flush) ∧ s.edge.snkAck = true ∧ s.snk ≠ [] := by
  simp [Ports.sinkDone, ports]

theorem commandDone_elsewhere {s : State} (h : s.st ≠ .idle) : (ports s).commandDone = false :=
  Bool.eq_false_iff.mpr fun done => h ((commandDone_iff s).mp done).2.1

theorem responseDone_elsewhere {s : State} (h : s.st ≠ .resp) : (ports s).responseDone = false :=
  Bool.eq_false_iff.mpr fun done => h ((responseDone_iff s).mp done).2.1

theorem readDone_elsewhere {s : State} (h : s.st ≠ .read) : (ports s).readDone = false :=
  Bool.eq_false_iff.mpr fun done => h ((readDone_iff s).mp done).2.1

theorem sinkDone_elsewhere {s : State} (h : ¬ (s.st = .write ∨ s.st = .flush)) :
    (ports s).sinkDone = false :=
  Bool.eq_false_iff.mpr fun done => h ((sinkDone_iff s).mp done).2.1

/-- Settles O34: each row of R34's table is the definition of its wire. -/
theorem outputWires : Obligations.OutputWires := by
  intro s
  refine ⟨?ready, ?valid, rfl, ?srcReq, ?snkReq, ?op, ?write, ?flush⟩
  case ready => simp [ports]
  case valid => simp [ports]
  case srcReq => simp [ports]
  case snkReq => simp [ports]
  case op => simp [ports]
  case write =>
    intro notFlush
    exact if_neg (Bool.eq_false_iff.mp notFlush)
  case flush =>
    intro flush
    exact if_pos flush

/-! ## The cases of an edge -/

/-- No reset, and no handshake completes. -/
structure Waits (s : State) : Prop where
  noReset : s.edge.rst = false
  noCommand : (ports s).commandDone = false
  noResponse : (ports s).responseDone = false
  noRead : (ports s).readDone = false
  noSink : (ports s).sinkDone = false

/-- An edge at which nothing completes only passes (log entry 2). -/
theorem step_of_waits {s : State} (h : Waits s) : step s = .next s.passEdge := by
  simp [step, clockEdge, h.noReset, h.noCommand, h.noResponse, h.noRead, h.noSink]

/-- What one rising edge is to a state, with what makes it so. -/
inductive EdgeCase (s : State) : Prop
  | reset (rst : s.edge.rst = true)
  | waits (waits : Waits s)
  | command {w : CmdWord} {ws : List CmdWord} (noReset : s.edge.rst = false) (phase : s.st = .idle)
      (valid : s.edge.cmdValid = true) (cmds : s.cmds = w :: ws)
  | response (noReset : s.edge.rst = false) (phase : s.st = .resp) (ready : s.edge.rspReady = true)
  | read {x : SrcSample} {xs : List SrcSample} (noReset : s.edge.rst = false) (phase : s.st = .read)
      (ack : s.edge.srcAck = true) (src : s.src = x :: xs)
  | write {x : Bool} {xs : List Bool} (noReset : s.edge.rst = false) (phase : s.st = .write)
      (ack : s.edge.snkAck = true) (snk : s.snk = x :: xs)
  | flush {x : Bool} {xs : List Bool} (noReset : s.edge.rst = false) (phase : s.st = .flush)
      (ack : s.edge.snkAck = true) (snk : s.snk = x :: xs)

theorem edgeCase (s : State) : EdgeCase s := by
  cases rst : s.edge.rst with
  | true => exact .reset rst
  | false =>
    by_cases command : (ports s).commandDone = true
    · obtain ⟨-, phase, valid, nonempty⟩ := (commandDone_iff s).mp command
      obtain ⟨w, ws, cmds⟩ := List.exists_cons_of_ne_nil nonempty
      exact .command rst phase valid cmds
    by_cases response : (ports s).responseDone = true
    · obtain ⟨-, phase, ready⟩ := (responseDone_iff s).mp response
      exact .response rst phase ready
    by_cases read : (ports s).readDone = true
    · obtain ⟨-, phase, ack, nonempty⟩ := (readDone_iff s).mp read
      obtain ⟨x, xs, src⟩ := List.exists_cons_of_ne_nil nonempty
      exact .read rst phase ack src
    by_cases sink : (ports s).sinkDone = true
    · obtain ⟨-, phase, ack, nonempty⟩ := (sinkDone_iff s).mp sink
      obtain ⟨x, xs, snk⟩ := List.exists_cons_of_ne_nil nonempty
      rcases phase with phase | phase
      · exact .write rst phase ack snk
      · exact .flush rst phase ack snk
    exact .waits ⟨rst, by simpa using command, by simpa using response, by simpa using read,
      by simpa using sink⟩

section Phases
variable {s : State}

/-- READ waits where SRC does not answer. -/
theorem waits_of_read (noReset : s.edge.rst = false) (phase : s.st = .read)
    (silent : s.edge.srcAck = false ∨ s.src = []) : Waits s where
  noReset := noReset
  noCommand := commandDone_elsewhere (by simp [phase])
  noResponse := responseDone_elsewhere (by simp [phase])
  noRead := by simp only [Ports.readDone, ports, ack_low silent, Bool.and_false]
  noSink := sinkDone_elsewhere (by simp [phase])

/-- WRITE and FLUSH wait where SNK does not answer. -/
theorem waits_of_sink (noReset : s.edge.rst = false) (phase : s.st = .write ∨ s.st = .flush)
    (silent : s.edge.snkAck = false ∨ s.snk = []) : Waits s where
  noReset := noReset
  noCommand := commandDone_elsewhere (by rcases phase with h | h <;> simp [h])
  noResponse := responseDone_elsewhere (by rcases phase with h | h <;> simp [h])
  noRead := readDone_elsewhere (by rcases phase with h | h <;> simp [h])
  noSink := by simp only [Ports.sinkDone, ports, ack_low silent, Bool.and_false]

/-- RESP waits where HOST does not take the response. -/
theorem waits_of_resp (noReset : s.edge.rst = false) (phase : s.st = .resp)
    (notReady : s.edge.rspReady = false) : Waits s where
  noReset := noReset
  noCommand := commandDone_elsewhere (by simp [phase])
  noResponse := by simp [Ports.responseDone, ports, notReady]
  noRead := readDone_elsewhere (by simp [phase])
  noSink := sinkDone_elsewhere (by simp [phase])

end Phases

/-- Each phase drives one port's wire at most, so one handshake at most can complete. -/
theorem countP_handshakes_le (s : State) :
    [(ports s).commandDone, (ports s).responseDone, (ports s).readDone, (ports s).sinkDone].countP id
      ≤ 1 := by
  cases phase : s.st with
  | idle =>
    rw [responseDone_elsewhere (by simp [phase]), readDone_elsewhere (by simp [phase]),
      sinkDone_elsewhere (by simp [phase])]
    cases (ports s).commandDone <;> decide
  | read =>
    rw [commandDone_elsewhere (by simp [phase]), responseDone_elsewhere (by simp [phase]),
      sinkDone_elsewhere (by simp [phase])]
    cases (ports s).readDone <;> decide
  | write =>
    rw [commandDone_elsewhere (by simp [phase]), responseDone_elsewhere (by simp [phase]),
      readDone_elsewhere (by simp [phase])]
    cases (ports s).sinkDone <;> decide
  | flush =>
    rw [commandDone_elsewhere (by simp [phase]), responseDone_elsewhere (by simp [phase]),
      readDone_elsewhere (by simp [phase])]
    cases (ports s).sinkDone <;> decide
  | resp =>
    rw [commandDone_elsewhere (by simp [phase]), readDone_elsewhere (by simp [phase]),
      sinkDone_elsewhere (by simp [phase])]
    cases (ports s).responseDone <;> decide

/-- Settles O35: the phases keep the ports apart, and what is left is the edge that waits. -/
theorem atMostOneHandshake : Obligations.AtMostOneHandshake := fun s =>
  ⟨countP_handshakes_le s, fun noReset noCommand noResponse noRead noSink =>
    step_of_waits ⟨noReset, noCommand, noResponse, noRead, noSink⟩⟩

/-! ## Acceptance, refused or not -/

/-- The command port's handshake is the acceptance of the word on it. -/
theorem step_of_commandDone {s : State} (done : (ports s).commandDone = true) :
    step s = acceptCommand (ports s).cmdWord (s.passEdge.popCmd.record (.command (ports s).cmdWord)) := by
  obtain ⟨noReset, phase, valid, nonempty⟩ := (commandDone_iff s).mp done
  obtain ⟨w, ws, cmds⟩ := List.exists_cons_of_ne_nil nonempty
  have word : (ports s).cmdWord = w := by simp [ports, cmds]
  rw [word, step_command_edge phase noReset valid cmds]

/-- Settles O36: among all that a step can do only the acceptance of a stream command over an aliased binding
is refused, and there the guard refuses whatever the command's key and mode. -/
theorem stepCompletesOrAliased : Obligations.StepCompletesOrAliased := by
  intro s
  constructor
  · cases edgeCase s with
    | reset rst => exact .inl ⟨_, step_reset_edge rst⟩
    | waits waits => exact .inl ⟨_, step_of_waits waits⟩
    | response noReset phase ready => exact .inl ⟨_, step_response_edge phase noReset ready⟩
    | read noReset phase ack src => exact .inl ⟨_, step_read_edge phase noReset ack src⟩
    | write noReset phase ack snk => exact .inl ⟨_, step_write_edge phase noReset ack snk⟩
    | flush noReset phase ack snk => exact .inl ⟨_, step_flush_edge phase noReset ack snk⟩
    | @command w ws noReset phase valid cmds =>
      have taken := step_command_edge phase noReset valid cmds
      rcases acceptCommand_cases (s := s.passEdge.popCmd.record (.command w)) phase w with
        ⟨r, -, e⟩ | ⟨m, k, -, -, e⟩ | ⟨m, k, starts, aliased, e⟩
      · exact .inl ⟨_, taken.trans e⟩
      · exact .inl ⟨_, taken.trans e⟩
      · exact .inr ⟨taken.trans e, aliased, phase,
          (commandDone_iff s).mpr ⟨noReset, phase, valid, by simp [cmds]⟩, w, ws, m, k, cmds,
          startsStream_iff.mp starts⟩
  · intro m k aliased done word
    obtain ⟨-, phase, -, -⟩ := (commandDone_iff s).mp done
    rw [step_of_commandDone done, word, acceptCommand_of_legal (decode_encode _)]
    exact exec_streamInstr_aliased (by simpa using phase) (by simpa using aliased) m k

/-! ## The step of phase FLUSH -/

/-- SNK's answer to the flush has left its queue and is noted before the engine acts on it. -/
theorem takeSink_flush_passEdge {s : State} {e : Edge} {es : List Edge} (edges : s.edges = e :: es)
    {x : Bool} {xs : List Bool} (snk : s.snk = x :: xs) (b : Byte) (r : SnkAnswer) :
    takeSink true b r s.passEdge =
      State.onFlush { s with edges := es, snk := xs, trace := s.trace ++ [.flush r] } r := by
  rw [takeSink, if_pos rfl, passEdge_of_cons edges, State.popSnk, snk, List.tail_cons, State.record]

/-- FLUSH with SNK answering: the engine acts on the answer (R94). -/
theorem step_flush_of_cons {s : State} {e : Edge} {es : List Edge} {x : Bool} {xs : List Bool}
    (phase : s.st = .flush) (edges : s.edges = e :: es) (noReset : e.rst = false) (ack : e.snkAck = true)
    (snk : s.snk = x :: xs) :
    step s = .next (State.onFlush
      { s with edges := es, snk := xs, trace := s.trace ++ [.flush (snkAnswer x)] } (snkAnswer x)) := by
  have head : s.edge = e := State.edge_cons edges
  rw [step_flush_edge phase (head ▸ noReset) (head ▸ ack) snk, takeSink_flush_passEdge edges snk]

/-- Settles O29: both answers to the flush end the command in RESP, and an edge without one only passes. -/
theorem flushPhaseStep : Obligations.FlushPhaseStep := by
  intro s e es phase edges noReset
  have head : s.edge = e := State.edge_cons edges
  refine ⟨fun xs ack snk => ?ok, fun xs ack snk => ?fail, fun silent => ?wait⟩
  case ok =>
    rw [step_flush_of_cons phase edges noReset ack snk, snkAnswer_low, State.onFlush_ok, State.respond]
  case fail =>
    rw [step_flush_of_cons phase edges noReset ack snk, snkAnswer_high, State.onFlush_fail,
      State.raiseError, State.respond]
  case wait =>
    rw [step_of_waits (waits_of_sink (head ▸ noReset) (.inr phase) (head ▸ silent)),
      passEdge_of_cons edges]

/-! ## Reset -/

/-- Settles O32: the entries of R24's table. -/
theorem resetRegisterValues : Obligations.ResetRegisterValues := ⟨rfl, rfl, rfl, rfl, rfl, rfl⟩

/-- Settles O33: `rst` = 1 lowers `cmd_ready` and every handshake, and comes first in the edge. -/
theorem resetEdgeWins : Obligations.ResetEdgeWins := by
  intro s e es edges rst
  have high : s.edge.rst = true := (State.edge_cons edges).symm ▸ rst
  refine ⟨?ready, ?command, ?response, ?read, ?sink, ?step⟩
  case ready => simp [ports, high]
  case command => simp [Ports.commandDone, high]
  case response => simp [Ports.responseDone, high]
  case read => simp [Ports.readDone, high]
  case sink => simp [Ports.sinkDone, high]
  case step =>
    rw [step_reset_edge high, passEdge_of_cons edges]
    rfl

/-- Settles O60: a reset edge adds its own entry to the history, and that entry takes only the command word
from the session and nothing from the output. -/
theorem abandonedBytesStay : Obligations.AbandonedBytesStay := by
  intro s rst
  have session : (s.passEdge.unitReset.record .reset).session = s.session.observe .reset := by
    rw [State.session_record, State.session_congr (s := s.passEdge.unitReset) (t := s) rfl]
  refine ⟨_, step_reset_edge rst, rfl, rfl, ?output, ?command, ?accepted, ?delivered, fun kept => ?durable⟩
  case output =>
    exact (accepted_append s.trace [.reset]).trans (List.append_nil _)
  case command => rw [session, Session.observe_reset_command]
  case accepted => rw [session, Session.observe_reset_accepted]
  case delivered => rw [session, Session.observe_reset_delivered]
  case durable => rw [Durable, Durable, session, Session.observe_reset_accepted]

end Sys2Proof.Proofs.Handshakes
end

section
/-! What one step makes of a state, as a relation with one named case per kind of edge (`Moves`), and the rules
about which register each kind of edge writes (R11, R17 to R21, R101). -/

namespace Sys2Proof.Proofs.Writers

open Sys2Proof.Machine Sys2Proof.Proofs.Encoding Sys2Proof.Proofs.Acceptance Sys2Proof.Proofs.Handshakes

/-! ## The relation of one step -/

/-- A next state, by the kind of edge that led to it. -/
inductive Moves (s : State) : State → Prop
  | reset (rst : s.edge.rst = true) : Moves s (s.passEdge.unitReset.record .reset)
  | waits : Moves s s.passEdge
  | completes {w : CmdWord} {ws : List CmdWord} {r : RspWord} (noReset : s.edge.rst = false)
      (phase : s.st = .idle) (cmds : s.cmds = w :: ws) (response : CompletesWith w r) :
      Moves s ((s.passEdge.popCmd.record (.command w)).respond r)
  | starts {ws : List CmdWord} (m : BitVec 1) (k : Byte) (noReset : s.edge.rst = false)
      (phase : s.st = .idle) (cmds : s.cmds = encode (streamInstr m k) :: ws) :
      Moves s ((s.passEdge.popCmd.record (.command (encode (streamInstr m k)))).startStream m k)
  | responds (phase : s.st = .resp) : Moves s (s.passEdge.takeResponse.record (.response s.rspR))
  | reads (phase : s.st = .read) (a : SrcAnswer) : Moves s (takeRead a s.passEdge)
  | writes (phase : s.st = .write) (r : SnkAnswer) : Moves s (takeSink false s.obuf r s.passEdge)
  | flushes (phase : s.st = .flush) (r : SnkAnswer) : Moves s (takeSink true 0x00 r s.passEdge)

theorem moves_of_step {s s' : State} (h : step s = .next s') : Moves s s' := by
  rcases step_next_cases h with ⟨rst, rfl⟩ | ⟨-, rfl⟩ | ⟨w, ws, r, noReset, phase, cmds, response, rfl⟩ |
    ⟨w, ws, m, k, noReset, phase, cmds, starts, rfl⟩ | ⟨-, phase, -, rfl⟩ | ⟨x, xs, -, phase, -, rfl⟩ |
    ⟨x, xs, -, phase, -, rfl⟩ | ⟨x, xs, -, phase, -, rfl⟩
  · exact .reset rst
  · exact .waits
  · exact .completes noReset phase cmds response
  · obtain rfl := startsStream_iff.mp starts
    exact .starts m k noReset phase cmds
  · exact .responds phase
  · exact .reads phase _
  · exact .writes phase _
  · exact .flushes phase _

/-! ## The engine's steps, field by field -/

section Fields
variable (s : State) (b : Byte)

@[simp] theorem takeRead_trace (a : SrcAnswer) : (takeRead a s).trace = s.trace ++ [.read a] := by
  cases a <;> rfl
@[simp] theorem takeRead_keyR (a : SrcAnswer) : (takeRead a s).keyR = s.keyR := by cases a <;> rfl
@[simp] theorem takeRead_modeR (a : SrcAnswer) : (takeRead a s).modeR = s.modeR := by cases a <;> rfl
@[simp] theorem takeRead_count (a : SrcAnswer) : (takeRead a s).count = s.count := by cases a <;> rfl
@[simp] theorem takeRead_cmds (a : SrcAnswer) : (takeRead a s).cmds = s.cmds := by cases a <;> rfl
@[simp] theorem takeRead_edges (a : SrcAnswer) : (takeRead a s).edges = s.edges := by cases a <;> rfl
@[simp] theorem takeRead_src (a : SrcAnswer) : (takeRead a s).src = s.src.tail := by cases a <;> rfl
@[simp] theorem takeRead_snk (a : SrcAnswer) : (takeRead a s).snk = s.snk := by cases a <;> rfl

@[simp] theorem takeRead_byte_st : (takeRead (.byte b) s).st = .write := rfl
@[simp] theorem takeRead_eos_st : (takeRead .eos s).st = .flush := rfl
@[simp] theorem takeRead_fault_st : (takeRead .fault s).st = .resp := rfl
@[simp] theorem takeRead_byte_obuf : (takeRead (.byte b) s).obuf = xform s.modeR b s.keyR := rfl
@[simp] theorem takeRead_eos_obuf : (takeRead .eos s).obuf = s.obuf := rfl
@[simp] theorem takeRead_fault_obuf : (takeRead .fault s).obuf = s.obuf := rfl
@[simp] theorem takeRead_byte_rspR : (takeRead (.byte b) s).rspR = s.rspR := rfl
@[simp] theorem takeRead_eos_rspR : (takeRead .eos s).rspR = s.rspR := rfl
@[simp] theorem takeRead_fault_rspR : (takeRead .fault s).rspR = mkRsp 0x00 .readError s.count := rfl

@[simp] theorem takeSink_keyR (flushing : Bool) (r : SnkAnswer) :
    (takeSink flushing b r s).keyR = s.keyR := by cases flushing <;> cases r <;> rfl
@[simp] theorem takeSink_modeR (flushing : Bool) (r : SnkAnswer) :
    (takeSink flushing b r s).modeR = s.modeR := by cases flushing <;> cases r <;> rfl
@[simp] theorem takeSink_obuf (flushing : Bool) (r : SnkAnswer) :
    (takeSink flushing b r s).obuf = s.obuf := by cases flushing <;> cases r <;> rfl
@[simp] theorem takeSink_cmds (flushing : Bool) (r : SnkAnswer) :
    (takeSink flushing b r s).cmds = s.cmds := by cases flushing <;> cases r <;> rfl
@[simp] theorem takeSink_edges (flushing : Bool) (r : SnkAnswer) :
    (takeSink flushing b r s).edges = s.edges := by cases flushing <;> cases r <;> rfl
@[simp] theorem takeSink_src (flushing : Bool) (r : SnkAnswer) :
    (takeSink flushing b r s).src = s.src := by cases flushing <;> cases r <;> rfl
@[simp] theorem takeSink_snk (flushing : Bool) (r : SnkAnswer) :
    (takeSink flushing b r s).snk = s.snk.tail := by cases flushing <;> cases r <;> rfl
@[simp] theorem takeSink_write_trace (r : SnkAnswer) :
    (takeSink false b r s).trace = s.trace ++ [.write b r] := by cases r <;> rfl
@[simp] theorem takeSink_flush_trace (r : SnkAnswer) :
    (takeSink true b r s).trace = s.trace ++ [.flush r] := by cases r <;> rfl

@[simp] theorem takeSink_write_ok_st : (takeSink false b .ok s).st = .read := rfl
@[simp] theorem takeSink_write_fail_st : (takeSink false b .fail s).st = .resp := rfl
@[simp] theorem takeSink_flush_st (r : SnkAnswer) : (takeSink true b r s).st = .resp := by cases r <;> rfl
@[simp] theorem takeSink_write_ok_count : (takeSink false b .ok s).count = s.count + 1 := rfl
@[simp] theorem takeSink_write_fail_count : (takeSink false b .fail s).count = s.count := rfl
@[simp] theorem takeSink_flush_count (r : SnkAnswer) : (takeSink true b r s).count = s.count := by
  cases r <;> rfl
@[simp] theorem takeSink_write_ok_rspR : (takeSink false b .ok s).rspR = s.rspR := rfl
@[simp] theorem takeSink_write_fail_rspR :
    (takeSink false b .fail s).rspR = mkRsp 0x00 .writeError s.count := rfl
@[simp] theorem takeSink_flush_ok_rspR : (takeSink true b .ok s).rspR = mkRsp 0x00 .ok s.count := rfl
@[simp] theorem takeSink_flush_fail_rspR :
    (takeSink true b .fail s).rspR = mkRsp 0x00 .writeError s.count := rfl

end Fields

/-! ## Phases and registers -/

/-- Settles O37: each kind of edge ends where the transitions of R11 say. -/
theorem phaseTransitions : Obligations.PhaseTransitions := by
  intro s s' h
  cases moves_of_step h with
  | reset rst => exact .inr (.inr ⟨rst, rfl⟩)
  | waits => exact .inl rfl
  | completes _ phase => exact .inr (.inl (by simp [phase, phaseStep]))
  | starts _ _ _ phase => exact .inr (.inl (by simp [phase, phaseStep]))
  | responds phase => exact .inr (.inl (by simp [phase, phaseStep]))
  | reads phase a => exact .inr (.inl (by cases a <;> simp [phase, phaseStep]))
  | writes phase r => exact .inr (.inl (by cases r <;> simp [phase, phaseStep]))
  | flushes phase r => exact .inr (.inl (by simp [phase, phaseStep]))

/-- Settles O38: only the start of a stream command writes the two registers, from the word it accepts. -/
theorem keyAndModeWriters : Obligations.KeyAndModeWriters := by
  intro s s' h noReset
  cases moves_of_step h with
  | reset rst => exact absurd (noReset.symm.trans rst) Bool.false_ne_true
  | waits => exact .inl ⟨rfl, rfl⟩
  | completes => exact .inl ⟨rfl, rfl⟩
  | starts m k _ phase => exact .inr ⟨phase, rfl, rfl⟩
  | responds => exact .inl ⟨rfl, rfl⟩
  | reads _ a => exact .inl ⟨takeRead_keyR _ a, takeRead_modeR _ a⟩
  | writes _ r => exact .inl ⟨takeSink_keyR _ _ _ r, takeSink_modeR _ _ _ r⟩
  | flushes _ r => exact .inl ⟨takeSink_keyR _ _ _ r, takeSink_modeR _ _ _ r⟩

/-- Settles O39: COUNT moves at the start of a stream command and with an accepted write; every other kind of
edge leaves it, and neither starts a stream nor adds an accepted write to the history. -/
theorem countWriters : Obligations.CountWriters := by
  intro s s' h noReset
  cases moves_of_step h with
  | reset rst => exact absurd (noReset.symm.trans rst) Bool.false_ne_true
  | waits => simp +contextual
  | completes => simp
  | starts _ _ _ phase => simp [phase]
  | responds => simp
  | reads phase => simp [phase]
  | writes phase r =>
    cases r with
    | ok => simp [phase, BitVec.toNat_add]
    | fail => simp [phase]
  | flushes phase => simp [phase]

/-- Settles O40: RSP_R is written on the way into RESP, OBUF by a delivered byte. -/
theorem responseAndBufferWriters : Obligations.ResponseAndBufferWriters := by
  intro s s' h noReset
  cases moves_of_step h with
  | reset rst => exact absurd (noReset.symm.trans rst) Bool.false_ne_true
  | waits => exact ⟨.inl rfl, .inl rfl⟩
  | completes _ phase => exact ⟨.inr ⟨by simp [phase], rfl⟩, .inl rfl⟩
  | starts => exact ⟨.inl rfl, .inl rfl⟩
  | responds => exact ⟨.inl rfl, .inl rfl⟩
  | reads phase a =>
    cases a with
    | byte b => exact ⟨.inl rfl, .inr ⟨b, phase, rfl, rfl, rfl⟩⟩
    | eos => exact ⟨.inl rfl, .inl rfl⟩
    | fault => exact ⟨.inr ⟨by simp [phase], rfl⟩, .inl rfl⟩
  | writes phase r =>
    refine ⟨?_, .inl (takeSink_obuf _ _ _ r)⟩
    cases r with
    | ok => exact .inl rfl
    | fail => exact .inr ⟨by simp [phase], rfl⟩
  | flushes phase r =>
    exact ⟨.inr ⟨by simp [phase], takeSink_flush_st _ _ r⟩, .inl (takeSink_obuf _ _ _ r)⟩

/-- Settles O41: a command leaves the queue where it is accepted, by itself, and no other kind of edge notes an
acceptance. -/
theorem commandsWaitUnconsumed : Obligations.CommandsWaitUnconsumed := by
  intro s s' h
  cases moves_of_step h with
  | reset => exact .inl ⟨rfl, by simp⟩
  | waits => exact .inl ⟨rfl, by simp⟩
  | @completes w ws r noReset phase cmds =>
    exact .inr ⟨phase, noReset, w, ws, cmds, by simp [cmds], rfl⟩
  | starts m k noReset phase cmds =>
    exact .inr ⟨phase, noReset, _, _, cmds, by simp [cmds], rfl⟩
  | responds => exact .inl ⟨rfl, by simp⟩
  | reads _ a => exact .inl ⟨by simp, by simp⟩
  | writes _ r => exact .inl ⟨by simp, by simp⟩
  | flushes _ r => exact .inl ⟨by simp, by simp⟩

end Sys2Proof.Proofs.Writers
end

section
/-! The order of transactions (R41, R59, R98, R101) and the end of a run (R131, R140). The observer of `watch`
reads the history from the left; a step adds one transaction on the right, so the invariant comes down to one
transition of the observer per kind of edge. -/

namespace Sys2Proof.Proofs.Order

open Sys2Proof.Machine Sys2Proof.Proofs.Encoding Sys2Proof.Proofs.Acceptance Sys2Proof.Proofs.Handshakes
  Sys2Proof.Proofs.Writers

/-! ## The invariant -/

/-- Settles O45: nothing observed, and IDLE waits for nothing. -/
theorem orderlyAtReset : Obligations.OrderlyAtReset := rfl

/-- One transaction more keeps the history orderly where the observer's next expectation is the new phase's. -/
theorem orderly_of_append {s s' : State} {t : Txn} (h : Orderly s) (trace : s'.trace = s.trace ++ [t])
    (next : s.st.watch.next t = some s'.st.watch) : Orderly s' := by
  rw [Orderly, trace, watch_append, h, Option.bind_some]
  simp [watch, next]

/-- A word that completes at its acceptance leaves only the response to wait for. -/
theorem afterCommand_of_completes {w : CmdWord} {r : RspWord} (h : CompletesWith w r) :
    Watch.afterCommand w = .responding := by
  rcases h with ⟨d, k, e, -⟩ | ⟨d, k, e, -⟩ | ⟨x, e, -⟩ <;> rw [Watch.afterCommand, e]

/-- A stream command begins with a read. -/
theorem afterCommand_streamInstr (m : BitVec 1) (k : Byte) :
    Watch.afterCommand (encode (streamInstr m k)) = .reading := by
  rw [Watch.afterCommand, decode_encode]
  rcases mode_cases m with rfl | rfl <;> rfl

/-- Settles O46: the transaction of each kind of edge is the one its phase waits for. -/
theorem orderlyKept : Obligations.OrderlyKept := by
  intro s s' orderly h
  cases moves_of_step h with
  | reset => exact orderly_of_append orderly rfl rfl
  | waits => exact orderly
  | completes _ phase _ response =>
    exact orderly_of_append orderly rfl (by
      simp [phase, Phase.watch, Watch.next, afterCommand_of_completes response])
  | starts m k _ phase =>
    exact orderly_of_append orderly rfl (by
      simp [phase, Phase.watch, Watch.next, afterCommand_streamInstr])
  | responds phase => exact orderly_of_append orderly rfl (by rw [phase]; rfl)
  | reads phase a =>
    exact orderly_of_append orderly (takeRead_trace _ a) (by rw [phase]; cases a <;> rfl)
  | writes phase r =>
    exact orderly_of_append orderly (takeSink_write_trace _ _ r) (by rw [phase]; cases r <;> rfl)
  | flushes phase r =>
    exact orderly_of_append orderly (takeSink_flush_trace _ _ r) (by rw [phase]; cases r <;> rfl)

/-! ## The end of a run -/

/-- A transaction in order keeps the run under way exactly while the observer waits for something. -/
theorem observe_running_iff {r : RunStatus} {m m' : Watch} {t : Txn} (h : r = .running ↔ m ≠ .between)
    (next : m.next t = some m') : r.observe t = .running ↔ m' ≠ .between := by
  cases t with
  | reset =>
    obtain rfl : Watch.between = m' := Option.some.inj next
    by_cases run : r = .running <;> simp [RunStatus.observe, run]
  | command w =>
    simp only [Watch.next, Option.ite_none_right_eq_some, Option.some.injEq] at next
    obtain ⟨-, rfl⟩ := next
    refine iff_of_true rfl ?_
    unfold Watch.afterCommand
    split <;> simp
  | read a =>
    simp only [Watch.next, Option.ite_none_right_eq_some, Option.some.injEq] at next
    obtain ⟨rfl, rfl⟩ := next
    exact iff_of_true (h.mpr (by simp)) (by cases a <;> simp [Watch.afterRead])
  | write b a =>
    simp only [Watch.next, Option.ite_none_right_eq_some, Option.some.injEq] at next
    obtain ⟨rfl, rfl⟩ := next
    exact iff_of_true (h.mpr (by simp)) (by cases a <;> simp [Watch.afterWrite])
  | flush a =>
    simp only [Watch.next, Option.ite_none_right_eq_some, Option.some.injEq] at next
    obtain ⟨rfl, rfl⟩ := next
    exact iff_of_true (h.mpr (by simp)) (by simp)
  | response w =>
    simp only [Watch.next, Option.ite_none_right_eq_some, Option.some.injEq] at next
    obtain ⟨rfl, rfl⟩ := next
    simp [RunStatus.observe, h.mpr]

/-- Over a whole history in order, from any such start. -/
theorem foldl_observe_running_iff {ts : List Txn} {r : RunStatus} {m m' : Watch}
    (h : r = .running ↔ m ≠ .between) (legal : watch m ts = some m') :
    ts.foldl RunStatus.observe r = .running ↔ m' ≠ .between := by
  induction ts generalizing r m with
  | nil =>
    obtain rfl : m = m' := Option.some.inj legal
    exact h
  | cons t ts ih =>
    rw [watch] at legal
    split at legal
    · next m₁ next => exact ih (observe_running_iff h next) legal
    · cases legal

/-- In an orderly history a run is under way exactly outside IDLE. -/
theorem lastRun_running_iff {s : State} (h : Orderly s) : s.lastRun = .running ↔ s.st ≠ .idle := by
  rw [State.lastRun, foldl_observe_running_iff (by simp) h]
  cases s.st <;> simp [Phase.watch]

/-- Whatever the history, a reset does not end a run: it abandons the one under way. -/
theorem observe_reset_ended {r : RunStatus} (h : r.observe .reset = .ended) : r = .ended := by
  cases r <;> simp [RunStatus.observe] at h ⊢

theorem idle_of_ended {s : State} (h : ended s = true) : s.st = .idle := by
  by_contra busy
  exact Bool.false_ne_true ((ended_busy busy).symm.trans h)

/-- The only edge that ends a run is the one at which HOST takes the response. -/
theorem ended_step {s s' : State} (orderly : Orderly s) (h : step s = .next s') (done : ended s' = true) :
    ended s = true ∨ (s.st = .resp ∧ s'.st = .idle ∧ s'.trace = s.trace ++ [.response s.rspR]) := by
  cases moves_of_step h with
  | reset =>
    have run : s.lastRun = .ended := by
      rw [ended_idle rfl, State.lastRun_record, beq_iff_eq] at done
      exact observe_reset_ended done
    have idle : s.st = .idle := by
      by_contra busy
      exact absurd (run.symm.trans ((lastRun_running_iff orderly).mpr busy)) (by simp)
    exact .inl (by rw [ended_idle idle, run]; rfl)
  | waits => exact .inl done
  | completes => cases idle_of_ended done
  | starts => cases idle_of_ended done
  | responds phase => exact .inr ⟨phase, rfl, rfl⟩
  | reads _ a => cases a <;> cases idle_of_ended done
  | writes _ r => cases r <;> cases idle_of_ended done
  | flushes _ r => cases r <;> cases idle_of_ended done

/-- The step whose transaction is the response leaves the unit in IDLE. -/
theorem response_step_idle {s s' : State} {w : RspWord} (h : step s = .next s')
    (trace : s'.trace = s.trace ++ [.response w]) : s'.st = .idle := by
  cases moves_of_step h with
  | reset => rfl
  | waits => simp at trace
  | completes => simp at trace
  | starts => simp at trace
  | responds => rfl
  | reads => simp at trace
  | writes => simp at trace
  | flushes => simp at trace

/-- Settles O59: the run's status follows the observer's, and one transaction decides what a step makes of it. -/
theorem runEndsByResponseTaken : Obligations.RunEndsByResponseTaken := by
  intro s s' orderly h
  have running := lastRun_running_iff orderly
  refine ⟨running, ended_busy, ?taken, ended_step orderly h, ?abandoned⟩
  case taken =>
    intro phase trace
    have idle := response_step_idle h trace
    have run : s.lastRun = .running := running.mpr (by simp [phase])
    have done : s'.lastRun = .ended := by
      rw [State.lastRun_congr (t := s.record (.response s.rspR)) trace, State.lastRun_record, run]
      rfl
    exact ⟨idle, by rw [ended_idle idle, done]; rfl⟩
  case abandoned =>
    intro run rst
    obtain rfl : s.passEdge.unitReset.record .reset = s' :=
      Host.Outcome.next.inj ((step_reset_edge rst).symm.trans h)
    have dropped : (s.passEdge.unitReset.record .reset).lastRun = .abandoned := by
      rw [State.lastRun_record, State.lastRun_congr (s := s.passEdge.unitReset) (t := s) rfl, run]
      rfl
    exact ⟨rfl, dropped, by rw [ended_idle rfl, dropped]; rfl⟩

end Sys2Proof.Proofs.Order
end

section
/-! Registers, streams and responses in agreement (R17, R18, R20, R21, R42, R92 to R95), and what a finished
stream command's response tells (R99, R100, R111, R112). `Faithful` is read phase by phase; each kind of edge
then adds one transaction to the session and moves the registers along with it. -/

namespace Sys2Proof.Proofs.Agreement

open Sys2Proof.Machine Sys2Proof.Proofs.Encoding Sys2Proof.Proofs.Acceptance Sys2Proof.Proofs.Handshakes
  Sys2Proof.Proofs.Writers Sys2Proof.Proofs.Response

/-! ## The responses a command may have -/

/-- A stream command's response is that of its mode and key. -/
theorem responseTo_streamInstr (m : BitVec 1) (k : Byte) (c : Session) (r : RspWord) :
    ResponseTo (encode (streamInstr m k)) c r ↔ StreamResponse m k c r := by
  rw [ResponseTo, decode_encode]
  rcases mode_cases m with rfl | rfl <;> rfl

/-- A word that completes at its acceptance gets its response without any stream transaction. -/
theorem responseTo_of_completes {w : CmdWord} {r : RspWord} (h : CompletesWith w r) {c : Session}
    (noStream : c.noStream) : ResponseTo w c r := by
  rcases h with ⟨d, k, e, rfl⟩ | ⟨d, k, e, rfl⟩ | ⟨x, e, rfl⟩ <;> rw [ResponseTo, e] <;>
    exact ⟨rfl, noStream⟩

/-- The accepted command's session has no transaction yet. -/
theorem noStream_observe_command (c : Session) (w : CmdWord) : (c.observe (.command w)).noStream :=
  ⟨rfl, rfl, rfl, rfl, rfl⟩

/-! ## The invariant, phase by phase -/

section Phases
variable {s : State}

/-- The transforms of the delivered bytes under the registers' mode and key. -/
def transformed (s : State) : List Byte := s.session.delivered.map (fun b => xform s.modeR b s.keyR)

theorem faithful_idle (phase : s.st = .idle) :
    Faithful s ↔ ∀ w, s.session.command = some w → ResponseTo w s.session s.rspR := by
  simp only [Faithful, phase]

theorem faithful_read (phase : s.st = .read) :
    Faithful s ↔ StreamRuns s ∧ s.session.sourceEnd = none ∧ s.session.accepted = transformed s := by
  simp only [Faithful, phase, transformed]

theorem faithful_write (phase : s.st = .write) :
    Faithful s ↔
      StreamRuns s ∧ s.session.sourceEnd = none ∧ s.session.accepted ++ [s.obuf] = transformed s := by
  simp only [Faithful, phase, transformed]

theorem faithful_flush (phase : s.st = .flush) :
    Faithful s ↔
      StreamRuns s ∧ s.session.sourceEnd = some .eos ∧ s.session.accepted = transformed s := by
  simp only [Faithful, phase, transformed]

theorem faithful_resp (phase : s.st = .resp) :
    Faithful s ↔ ∃ w, s.session.command = some w ∧ ResponseTo w s.session s.rspR := by
  simp only [Faithful, phase]

/-- In RESP after a stream command, it is enough to give that command's response. -/
theorem faithful_of_streamResponse (phase : s.st = .resp) {m : BitVec 1} {k : Byte}
    (command : s.session.command = some (encode (streamInstr m k)))
    (response : StreamResponse m k s.session s.rspR) : Faithful s :=
  (faithful_resp phase).mpr ⟨_, command, (responseTo_streamInstr m k _ _).mpr response⟩

end Phases

/-! ## The session after a step -/

section Sessions
variable (s : State) (b : Byte)

@[simp] theorem session_passEdge : s.passEdge.session = s.session := rfl
@[simp] theorem session_respond (w : RspWord) : (s.respond w).session = s.session := rfl
@[simp] theorem session_startStream (m : BitVec 1) (k : Byte) :
    (s.startStream m k).session = s.session := rfl
@[simp] theorem session_takeResponse : s.takeResponse.session = s.session := rfl
@[simp] theorem session_popCmd : s.popCmd.session = s.session := rfl

@[simp] theorem session_takeRead (a : SrcAnswer) :
    (takeRead a s).session = s.session.observe (.read a) := by
  rw [State.session_congr (t := s.record (.read a)) (takeRead_trace s a), State.session_record]

@[simp] theorem session_takeSink_write (r : SnkAnswer) :
    (takeSink false b r s).session = s.session.observe (.write b r) := by
  rw [State.session_congr (t := s.record (.write b r)) (takeSink_write_trace s b r), State.session_record]

@[simp] theorem session_takeSink_flush (r : SnkAnswer) :
    (takeSink true b r s).session = s.session.observe (.flush r) := by
  rw [State.session_congr (t := s.record (.flush r)) (takeSink_flush_trace s b r), State.session_record]

end Sessions

/-! ## Each kind of edge keeps it -/

/-- READ: a delivered byte waits transformed in OBUF, `Eos` leads to the flush, `Fault` to its response. -/
theorem faithful_takeRead {s : State} (phase : s.st = .read) (h : Faithful s) (a : SrcAnswer) :
    Faithful (takeRead a s.passEdge) := by
  obtain ⟨⟨command, count, rejected, flushed⟩, sourceEnd, accepted⟩ := (faithful_read phase).mp h
  cases a with
  | byte b =>
    refine (faithful_write rfl).mpr ⟨⟨?_, ?_, ?_, ?_⟩, ?_, ?_⟩ <;>
      simp [Session.observe, transformed, command, count, rejected, flushed, sourceEnd, accepted]
  | eos =>
    refine (faithful_flush rfl).mpr ⟨⟨?_, ?_, ?_, ?_⟩, ?_, ?_⟩ <;>
      simp [Session.observe, transformed, command, count, rejected, flushed, accepted]
  | fault =>
    refine faithful_of_streamResponse rfl (m := s.modeR) (k := s.keyR) ?_ (.inr (.inl ?_)) <;>
      simp [Session.observe, transformed, command, count, rejected, flushed, accepted]

/-- WRITE: an accepted byte joins the others and COUNT follows, a rejected one is told apart. -/
theorem faithful_takeSink_write {s : State} (phase : s.st = .write) (h : Faithful s) (r : SnkAnswer) :
    Faithful (takeSink false s.obuf r s.passEdge) := by
  obtain ⟨⟨command, count, rejected, flushed⟩, sourceEnd, accepted⟩ := (faithful_write phase).mp h
  cases r with
  | ok =>
    refine (faithful_read rfl).mpr ⟨⟨?_, ?count, ?_, ?_⟩, ?_, ?_⟩
    case count => simp [Session.observe, count, BitVec.ofNat_add]
    all_goals simp [Session.observe, transformed, command, rejected, flushed, sourceEnd, accepted]
  | fail =>
    refine faithful_of_streamResponse rfl (m := s.modeR) (k := s.keyR) ?_ (.inr (.inr (.inr ?_))) <;>
      simp [Session.observe, transformed, command, count, flushed, sourceEnd, accepted]

/-- FLUSH: either answer ends the command with all the bytes accepted. -/
theorem faithful_takeSink_flush {s : State} (phase : s.st = .flush) (h : Faithful s) (b : Byte)
    (r : SnkAnswer) : Faithful (takeSink true b r s.passEdge) := by
  obtain ⟨⟨command, count, rejected, flushed⟩, sourceEnd, accepted⟩ := (faithful_flush phase).mp h
  cases r with
  | ok =>
    refine faithful_of_streamResponse rfl (m := s.modeR) (k := s.keyR) ?_ (.inl ?_) <;>
      simp [Session.observe, transformed, command, count, rejected, sourceEnd, accepted]
  | fail =>
    refine faithful_of_streamResponse rfl (m := s.modeR) (k := s.keyR) ?_ (.inr (.inr (.inl ?_))) <;>
      simp [Session.observe, transformed, command, count, rejected, sourceEnd, accepted]

/-- Settles O47: no command has been accepted, and IDLE asks nothing else. -/
theorem faithfulAtReset : Obligations.FaithfulAtReset := by
  refine (faithful_idle rfl).mpr fun w command => ?_
  cases command

/-- Settles O48: one lemma per port for the engine's edges; an acceptance begins a session of its own, taking
the response keeps the session, and a reset drops its command. -/
theorem faithfulKept : Obligations.FaithfulKept := by
  intro s s' faithful h
  cases moves_of_step h with
  | reset =>
    refine (faithful_idle rfl).mpr fun w command => ?_
    rw [State.session_record] at command
    cases command
  | waits => exact faithful
  | @completes w ws r _ _ _ response =>
    exact (faithful_resp rfl).mpr
      ⟨w, by simp [Session.observe], responseTo_of_completes response (by
        simpa using noStream_observe_command _ _)⟩
  | starts m k =>
    refine (faithful_read rfl).mpr ⟨⟨?_, ?_, ?_, ?_⟩, ?_, ?_⟩ <;>
      simp [Session.observe, Session.empty, transformed]
  | responds phase =>
    obtain ⟨w, command, response⟩ := (faithful_resp phase).mp faithful
    refine (faithful_idle rfl).mpr fun w' command' => ?_
    rw [State.session_record] at command' ⊢
    obtain rfl : w = w' := Option.some.inj (command.symm.trans command')
    exact response
  | reads phase a => exact faithful_takeRead phase faithful a
  | writes phase r => exact faithful_takeSink_write phase faithful r
  | flushes phase r => exact faithful_takeSink_flush phase faithful _ r

/-! ## What the response tells -/

/-- A first part of the transforms is the transforms of the first delivered bytes. -/
theorem eq_map_take_of_isPrefix {f : Byte → Byte} {kept delivered : List Byte}
    (h : kept <+: delivered.map f) : kept = (delivered.take kept.length).map f := by
  rw [List.map_take]
  exact List.prefix_iff_eq_take.mp h

section Tells
variable {m : BitVec 1} {k : Byte} {c : Session} {w : RspWord} (h : StreamResponse m k c w)
include h

/-- However the command ended, SNK has accepted a first part of the transforms (R100). -/
theorem streamResponse_accepted : c.accepted <+: c.delivered.map (fun b => xform m b k) := by
  rcases h with ⟨-, all, -⟩ | ⟨-, all, -⟩ | ⟨-, all, -⟩ | ⟨-, ⟨b, -, butOne⟩, -⟩
  · exact all ▸ List.prefix_rfl
  · exact all ▸ List.prefix_rfl
  · exact all ▸ List.prefix_rfl
  · exact ⟨[b], butOne⟩

/-- RESULT and COUNT do not depend on how the command ended. -/
theorem streamResponse_fields :
    rspResult w = 0x00 ∧ rspCount w = BitVec.ofNat 48 c.accepted.length := by
  rcases h with ⟨rfl, -⟩ | ⟨rfl, -⟩ | ⟨rfl, -⟩ | ⟨rfl, -⟩ <;>
    exact ⟨rspResult_mkRsp _ _ _, rspCount_mkRsp _ _ _⟩

/-- STATUS tells how the command ended (R99, R111, R112). -/
theorem streamResponse_status :
    (rspStatus w = 0b00 ↔ c.flushed = some .ok) ∧ (rspStatus w = 0b01 ↔ c.sourceEnd = some .fault) ∧
    (rspStatus w = 0b10 ↔ (∃ b, c.rejected = some b) ∨ c.flushed = some .fail) := by
  rcases h with ⟨rfl, -, sourceEnd, rejected, flushed⟩ | ⟨rfl, -, sourceEnd, rejected, flushed⟩ |
    ⟨rfl, -, sourceEnd, rejected, flushed⟩ | ⟨rfl, ⟨b, rejected, -⟩, sourceEnd, flushed⟩ <;>
    simp [Status.code, sourceEnd, rejected, flushed]

/-- Only a write error leaves a delivered byte out. -/
theorem streamResponse_length (status : rspStatus w ≠ 0b10) : c.accepted.length = c.delivered.length := by
  rcases h with ⟨-, all, -⟩ | ⟨-, all, -⟩ | ⟨-, all, -⟩ | ⟨rfl, -⟩
  · rw [all, List.length_map]
  · rw [all, List.length_map]
  · rw [all, List.length_map]
  · exact absurd (rspStatus_mkRsp _ _ _) status

end Tells

/-- Settles O49: the response is one of the four of a finished stream command, and each of them tells this. -/
theorem partialOutcome : Obligations.PartialOutcome := by
  intro s m k faithful phase command
  obtain ⟨w, command', response⟩ := (faithful_resp phase).mp faithful
  obtain rfl : encode (streamInstr m k) = w := Option.some.inj (command.symm.trans command')
  have told := (responseTo_streamInstr m k _ _).mp response
  have sent := streamResponse_accepted told
  obtain ⟨result, count⟩ := streamResponse_fields told
  obtain ⟨ok, readError, writeError⟩ := streamResponse_status told
  exact ⟨result, count, eq_map_take_of_isPrefix sent, ok, readError, writeError,
    streamResponse_length told, fun _ durable =>
      ⟨durable.length_le, eq_map_take_of_isPrefix (durable.trans sent)⟩⟩

end Sys2Proof.Proofs.Agreement
end

section
/-! Edges that change nothing but the list of edges (R101, R134 to R136): the command port while a command
runs, and the three ways to wait without end. -/

namespace Sys2Proof.Proofs.Waiting

open Sys2Proof.Machine Sys2Proof.Proofs.Handshakes Sys2Proof.Proofs.Writers

/-! ## The command port while a command runs -/

/-- Outside IDLE the wires of the command port decide no handshake. -/
theorem waits_with_cmds {s : State} (busy : s.st ≠ .idle) (h : Waits s) (ws : List CmdWord) :
    Waits { s with cmds := ws } :=
  ⟨h.noReset, commandDone_elsewhere busy, h.noResponse, h.noRead, h.noSink⟩

/-- Settles O42: no edge outside IDLE looks at HOST's commands, so they pass through it unchanged. -/
theorem runningCommandIgnoresPort : Obligations.RunningCommandIgnoresPort := by
  intro s ws busy
  cases edgeCase s with
  | reset rst => exact ⟨_, step_reset_edge rst, step_reset_edge rst⟩
  | waits waits => exact ⟨_, step_of_waits waits, step_of_waits (waits_with_cmds busy waits ws)⟩
  | command _ phase => exact absurd phase busy
  | response noReset phase ready =>
    exact ⟨_, step_response_edge phase noReset ready, step_response_edge phase noReset ready⟩
  | @read x xs noReset phase ack src =>
    refine ⟨_, step_read_edge phase noReset ack src,
      (step_read_edge (s := { s with cmds := ws }) phase noReset ack src).trans ?_⟩
    cases x.answer <;> rfl
  | @write x xs noReset phase ack snk =>
    refine ⟨_, step_write_edge phase noReset ack snk,
      (step_write_edge (s := { s with cmds := ws }) phase noReset ack snk).trans ?_⟩
    cases x <;> rfl
  | @flush x xs noReset phase ack snk =>
    refine ⟨_, step_flush_edge phase noReset ack snk,
      (step_flush_edge (s := { s with cmds := ws }) phase noReset ack snk).trans ?_⟩
    cases x <;> rfl

/-! ## Waiting for any number of edges -/

/-- The state once `n` edges have passed and nothing else has happened. -/
def afterEdges (n : Nat) (s : State) : State := { s with edges := s.edges.drop n }

@[simp] theorem afterEdges_passEdge (n : Nat) (s : State) :
    afterEdges n s.passEdge = afterEdges (n + 1) s := by
  rw [afterEdges, afterEdges, State.passEdge, List.drop_tail]

/-- A state that waits at each of its edges is only ever left with fewer edges. -/
theorem steps_waiting (n : Nat) {s : State} (waits : ∀ k, Waits (afterEdges k s)) :
    steps n s = .next (afterEdges n s) := by
  induction n generalizing s with
  | zero => rfl
  | succ n ih =>
    have now : Waits s := waits 0
    rw [steps_succ (step_of_waits now), ih fun k => by rw [afterEdges_passEdge]; exact waits (k + 1),
      afterEdges_passEdge]

/-- What holds of all the listed edges and of an edge at which no agent acts holds at every time. -/
theorem edge_afterEdges {p : Edge → Prop} {s : State} (listed : ∀ e ∈ s.edges, p e) (quiet : p Edge.quiet)
    (k : Nat) : p (afterEdges k s).edge := by
  cases rest : s.edges.drop k with
  | nil =>
    have head : (afterEdges k s).edge = Edge.quiet := by simp [State.edge, afterEdges, rest]
    exact head ▸ quiet
  | cons e es =>
    have head : (afterEdges k s).edge = e := State.edge_cons rest
    exact head ▸ listed e (List.mem_of_mem_drop (rest ▸ List.mem_cons_self))

/-- An undisturbed edge brings no reset and takes no response. -/
theorem undisturbed_iff {es : List Edge} :
    undisturbed es = true ↔ ∀ e ∈ es, e.rst = false ∧ e.rspReady = false := by
  simp [undisturbed]

/-- Settles O43: with no response taken, RESP waits at each edge. -/
theorem hostDeadlocks : Obligations.HostDeadlocks := by
  intro n s phase calm
  have each (k : Nat) := edge_afterEdges (undisturbed_iff.mp calm) ⟨rfl, rfl⟩ k
  exact ⟨afterEdges n s, steps_waiting n fun k => waits_of_resp (each k).1 phase (each k).2, phase,
    ended_busy (by simp [afterEdges, phase]), rfl, rfl, rfl⟩

/-- Settles O44: without an answer of its counterpart each of the three phases waits at each edge. -/
theorem stallsHaveNoBound : Obligations.StallsHaveNoBound := by
  intro n s noReset stalled
  have low (k : Nat) := edge_afterEdges noReset rfl k
  refine steps_waiting n fun k => ?_
  rcases stalled with ⟨phase, empty | silent⟩ | ⟨phase, empty | silent⟩
  · exact waits_of_read (low k) phase (.inr empty)
  · exact waits_of_read (low k) phase (.inl (edge_afterEdges silent rfl k))
  · exact waits_of_sink (low k) phase (.inr empty)
  · exact waits_of_sink (low k) phase (.inl (edge_afterEdges silent rfl k))

end Sys2Proof.Proofs.Waiting
end

section
/-! The engine against the loop of R98. What is left of the loop can be read off a state in any phase of the
command (`remaining`); an edge either only passes, and leaves it as it is, or performs its first transaction.
Both statements about the engine follow by induction over the edges. -/

namespace Sys2Proof.Proofs.Loop

open Sys2Proof.Machine Sys2Proof.Proofs.Handshakes Sys2Proof.Proofs.Writers Sys2Proof.Proofs.Waiting

/-! ## What is left of the loop -/

/-- What the loop still does once SNK has answered the write of `b`, COUNT being `n` before the answer. -/
def afterWrite (mode : BitVec 1) (key : Byte) (n : Count) (b : Byte) (rs : List SrcAnswer) :
    List SnkAnswer → List Txn × Option RspWord
  | [] => ([], none)
  | .fail :: _ => ([.write b .fail], some (mkRsp 0x00 .writeError n))
  | .ok :: ws =>
    (.write b .ok :: (streamCommand mode key (n + 1) rs ws).1, (streamCommand mode key (n + 1) rs ws).2)

/-- What the loop still does from its flush on. -/
def afterEos (n : Count) : List SnkAnswer → List Txn × Option RspWord
  | [] => ([], none)
  | .ok :: _ => ([.flush .ok], some (mkRsp 0x00 .ok n))
  | .fail :: _ => ([.flush .fail], some (mkRsp 0x00 .writeError n))

/-- The transactions still to come in a state of a stream command, and the response after them. No command
runs in IDLE, and nothing is left to do there. -/
def remaining (s : State) : List Txn × Option RspWord :=
  match s.st with
  | .idle => ([], none)
  | .read => streamCommand s.modeR s.keyR s.count (s.src.map SrcSample.answer) (s.snk.map snkAnswer)
  | .write => afterWrite s.modeR s.keyR s.count s.obuf (s.src.map SrcSample.answer) (s.snk.map snkAnswer)
  | .flush => afterEos s.count (s.snk.map snkAnswer)
  | .resp => ([], some s.rspR)

section Phases
variable {s : State}

theorem remaining_read (h : s.st = .read) : remaining s =
    streamCommand s.modeR s.keyR s.count (s.src.map SrcSample.answer) (s.snk.map snkAnswer) := by
  rw [remaining, h]

theorem remaining_write (h : s.st = .write) : remaining s =
    afterWrite s.modeR s.keyR s.count s.obuf (s.src.map SrcSample.answer) (s.snk.map snkAnswer) := by
  rw [remaining, h]

theorem remaining_flush (h : s.st = .flush) :
    remaining s = afterEos s.count (s.snk.map snkAnswer) := by
  rw [remaining, h]

theorem remaining_resp (h : s.st = .resp) : remaining s = ([], some s.rspR) := by
  rw [remaining, h]

end Phases

/-- The loop begins with a read, whose answer decides how it goes on. -/
theorem streamCommand_byte (mode : BitVec 1) (key : Byte) (n : Count) (b : Byte) (rs : List SrcAnswer)
    (ws : List SnkAnswer) : streamCommand mode key n (.byte b :: rs) ws =
      (.read (.byte b) :: (afterWrite mode key n (xform mode b key) rs ws).1,
        (afterWrite mode key n (xform mode b key) rs ws).2) := by
  rcases ws with _ | ⟨_ | _, ws⟩ <;> simp [afterWrite]

theorem streamCommand_eos (mode : BitVec 1) (key : Byte) (n : Count) (rs : List SrcAnswer)
    (ws : List SnkAnswer) : streamCommand mode key n (.eos :: rs) ws =
      (.read .eos :: (afterEos n ws).1, (afterEos n ws).2) := by
  rcases ws with _ | ⟨_ | _, ws⟩ <;> simp [afterEos]

/-- Nothing is left to do and there is a response exactly in RESP, where the response is RSP_R. -/
theorem remaining_done_iff {s : State} {w : RspWord} :
    remaining s = ([], some w) ↔ s.st = .resp ∧ s.rspR = w := by
  cases phase : s.st with
  | idle => simp [remaining, phase]
  | read =>
    rw [remaining_read phase]
    rcases s.src.map SrcSample.answer with _ | ⟨_ | _ | _, rs⟩
    · simp
    · simp [streamCommand_byte]
    · simp [streamCommand_eos]
    · simp
  | write =>
    rw [remaining_write phase]
    rcases s.snk.map snkAnswer with _ | ⟨_ | _, ws⟩ <;> simp [afterWrite]
  | flush =>
    rw [remaining_flush phase]
    rcases s.snk.map snkAnswer with _ | ⟨_ | _, ws⟩ <;> simp [afterEos]
  | resp => simp [remaining_resp phase]

/-! ## One edge -/

/-- Of what is left, the edge has performed the first transaction. -/
structure Performs (s t : State) (x : Txn) : Prop where
  trace : t.trace = s.trace ++ [x]
  left : remaining s = (x :: (remaining t).1, (remaining t).2)
  edges : t.edges = s.edges.tail
  busy : t.st ≠ .idle

theorem performs_read {s : State} {x : SrcSample} {xs : List SrcSample} (phase : s.st = .read)
    (src : s.src = x :: xs) : Performs s (takeRead x.answer s.passEdge) (.read x.answer) where
  trace := takeRead_trace _ _
  left := by
    rw [remaining_read phase, src, List.map_cons]
    cases x.answer with
    | byte b => rw [streamCommand_byte, remaining_write rfl]; simp [src]
    | eos => rw [streamCommand_eos, remaining_flush rfl]; simp
    | fault => rw [streamCommand_fault, remaining_resp rfl]; simp
  edges := takeRead_edges _ _
  busy := by cases x.answer <;> simp

theorem performs_write {s : State} {x : Bool} {xs : List Bool} (phase : s.st = .write)
    (snk : s.snk = x :: xs) :
    Performs s (takeSink false s.obuf (snkAnswer x) s.passEdge) (.write s.obuf (snkAnswer x)) where
  trace := takeSink_write_trace _ _ _
  left := by
    rw [remaining_write phase, snk, List.map_cons]
    cases snkAnswer x with
    | ok => rw [afterWrite, remaining_read rfl]; simp [snk]
    | fail => rw [afterWrite, remaining_resp rfl]; simp
  edges := takeSink_edges _ _ _ _
  busy := by cases snkAnswer x <;> simp

theorem performs_flush {s : State} {x : Bool} {xs : List Bool} (phase : s.st = .flush)
    (snk : s.snk = x :: xs) :
    Performs s (takeSink true 0x00 (snkAnswer x) s.passEdge) (.flush (snkAnswer x)) where
  trace := takeSink_flush_trace _ _ _
  left := by
    rw [remaining_flush phase, snk, List.map_cons, remaining_resp (takeSink_flush_st _ _ _)]
    cases snkAnswer x <;> simp [afterEos]
  edges := takeSink_edges _ _ _ _
  busy := by simp

/-- Where both agents are ready and the unit waits all the same, the agent it waits for has run out, or the
command waits for HOST. -/
theorem nothing_left_of_waits {s : State} (waits : Waits s) (srcAck : s.edge.srcAck = true)
    (snkAck : s.edge.snkAck = true) : (remaining s).1 = [] := by
  have unread (phase : s.st = .read) : s.src = [] := by
    by_contra nonempty
    exact Bool.eq_false_iff.mp waits.noRead
      ((readDone_iff s).mpr ⟨waits.noReset, phase, srcAck, nonempty⟩)
  have unsunk (phase : s.st = .write ∨ s.st = .flush) : s.snk = [] := by
    by_contra nonempty
    exact Bool.eq_false_iff.mp waits.noSink
      ((sinkDone_iff s).mpr ⟨waits.noReset, phase, snkAck, nonempty⟩)
  cases phase : s.st with
  | idle => rw [remaining, phase]
  | read => rw [remaining_read phase, unread phase, List.map_nil, streamCommand_no_source]
  | write => rw [remaining_write phase, unsunk (.inl phase), List.map_nil, afterWrite]
  | flush => rw [remaining_flush phase, unsunk (.inr phase), List.map_nil, afterEos]
  | resp => rw [remaining_resp phase]

/-- At an undisturbed edge the engine waits or performs the next transaction of the loop; it can only wait
where an agent is silent or nothing is left to do. -/
theorem engine_step {s : State} (busy : s.st ≠ .idle) (calm : s.edge.rst = false ∧ s.edge.rspReady = false) :
    (step s = .next s.passEdge ∧
      ((s.edge.srcAck && s.edge.snkAck) = false ∨ (remaining s).1 = []))
    ∨ ∃ t x, step s = .next t ∧ Performs s t x := by
  cases edgeCase s with
  | reset rst => exact absurd (calm.1.symm.trans rst) Bool.false_ne_true
  | command _ phase => exact absurd phase busy
  | response _ _ ready => exact absurd (calm.2.symm.trans ready) Bool.false_ne_true
  | read noReset phase ack src =>
    exact .inr ⟨_, _, step_read_edge phase noReset ack src, performs_read phase src⟩
  | write noReset phase ack snk =>
    exact .inr ⟨_, _, step_write_edge phase noReset ack snk, performs_write phase snk⟩
  | flush noReset phase ack snk =>
    exact .inr ⟨_, _, step_flush_edge phase noReset ack snk, performs_flush phase snk⟩
  | waits waits =>
    refine .inl ⟨step_of_waits waits, ?_⟩
    cases both : s.edge.srcAck && s.edge.snkAck with
    | false => exact .inl rfl
    | true =>
      obtain ⟨srcAck, snkAck⟩ := Bool.and_eq_true_iff.mp both
      exact .inr (nothing_left_of_waits waits srcAck snkAck)

/-! ## Runs -/

/-- In `n` edges the engine has gone from `s` to `t` by the first `j` transactions of what was left, and either
as many of the edges as found both agents ready have been used, or nothing is left. -/
structure Progress (n : Nat) (s t : State) (j : Nat) : Prop where
  run : steps n s = .next t
  trace : t.trace = s.trace ++ (remaining s).1.take j
  left : remaining t = ((remaining s).1.drop j, (remaining s).2)
  busy : t.st ≠ .idle
  used : answering (s.edges.take n) ≤ j ∨ (remaining s).1.length ≤ j

theorem progress_zero {s : State} (busy : s.st ≠ .idle) : Progress 0 s s 0 where
  run := rfl
  trace := by simp
  left := by simp
  busy := busy
  used := .inl (by simp [answering])

/-- The first edge counts where it finds both agents ready; after the last edge none is. -/
theorem answering_take_succ (s : State) (n : Nat) : answering (s.edges.take (n + 1)) =
    answering (s.edges.tail.take n) + if (s.edge.srcAck && s.edge.snkAck) = true then 1 else 0 := by
  cases edges : s.edges with
  | nil => simp [State.edge, edges, answering, Edge.quiet]
  | cons e es =>
    rw [State.edge_cons edges, List.take_succ_cons, answering, List.countP_cons]
    rfl

theorem progress_wait {n j : Nat} {s t : State} (waits : step s = .next s.passEdge)
    (idle : (s.edge.srcAck && s.edge.snkAck) = false ∨ (remaining s).1 = [])
    (h : Progress n s.passEdge t j) : Progress (n + 1) s t j where
  run := (steps_succ waits n).trans h.run
  trace := h.trace
  left := h.left
  busy := h.busy
  used := by
    rcases idle with silent | nothing
    · rw [answering_take_succ, silent]
      exact h.used
    · exact .inr (by rw [nothing]; exact Nat.zero_le j)

theorem progress_perform {n j : Nat} {s t u : State} {x : Txn} (performs : step s = .next t)
    (done : Performs s t x) (h : Progress n t u j) : Progress (n + 1) s u (j + 1) where
  run := (steps_succ performs n).trans h.run
  trace := by rw [h.trace, done.trace, done.left, List.take_succ_cons, List.append_assoc, List.singleton_append]
  left := by rw [h.left, done.left, List.drop_succ_cons]
  busy := h.busy
  used := by
    rw [answering_take_succ, done.left, List.length_cons, ← done.edges]
    rcases h.used with used | all
    · exact .inl (by split <;> omega)
    · exact .inr (by omega)

/-- From any phase of a command, over any number of undisturbed edges (R98, R136). -/
theorem engine_progress (n : Nat) {s : State} (busy : s.st ≠ .idle) (calm : undisturbed s.edges = true) :
    ∃ t j, Progress n s t j := by
  induction n generalizing s with
  | zero => exact ⟨s, 0, progress_zero busy⟩
  | succ n ih =>
    have listed := undisturbed_iff.mp calm
    have tail : undisturbed s.edges.tail = true :=
      undisturbed_iff.mpr fun e mem => listed e (List.mem_of_mem_tail mem)
    rcases engine_step busy (edge_afterEdges listed ⟨rfl, rfl⟩ 0) with ⟨waits, idle⟩ | ⟨t, x, performs, done⟩
    · obtain ⟨u, j, h⟩ := ih (s := s.passEdge) busy tail
      exact ⟨u, j, progress_wait waits idle h⟩
    · obtain ⟨u, j, h⟩ := ih (s := t) done.busy (done.edges ▸ tail)
      exact ⟨u, j + 1, progress_perform performs done h⟩

/-- Settles O50: with an edge for each transaction, all of them are performed and the response is left. -/
theorem engineRunsTheLoop : Obligations.EngineRunsTheLoop := by
  intro s ts w phase calm loop enough
  obtain ⟨t, j, h⟩ := engine_progress s.edges.length (by simp [phase]) calm
  have start : remaining s = (ts, some w) := (remaining_read phase).trans loop
  have all : ts.length ≤ j := by
    have used := h.used
    rw [start, List.take_length] at used
    exact used.elim (enough.trans ·) id
  have left := h.left
  have trace := h.trace
  rw [start, List.drop_of_length_le all] at left
  rw [start, List.take_of_length_le all] at trace
  obtain ⟨done, response⟩ := remaining_done_iff.mp left
  exact ⟨t, h.run, done, response, trace⟩

/-- Settles O51: what is left of the loop tells the phase, and it is the loop without the performed part. -/
theorem engineNeverLeavesTheLoop : Obligations.EngineNeverLeavesTheLoop := by
  intro n s ts w phase calm loop
  obtain ⟨t, j, h⟩ := engine_progress n (by simp [phase]) calm
  have start : remaining s = (ts, w) := (remaining_read phase).trans loop
  have left : remaining t = (ts.drop j, w) := by simpa [start] using h.left
  have response (done : t.st = .resp) : ts.drop j = [] ∧ w = some t.rspR := by
    rw [remaining_resp done, Prod.mk.injEq] at left
    exact ⟨left.1.symm, left.2.symm⟩
  refine ⟨t, j, h.run, by simpa [start] using h.trace, ⟨fun done => ?ended, ?isDone⟩,
    fun done => (response done).2, h.busy⟩
  case ended =>
    obtain ⟨performed, answer⟩ := response done
    exact ⟨List.drop_eq_nil_iff.mp performed, by simp [answer]⟩
  case isDone =>
    rintro ⟨performed, answer⟩
    obtain ⟨r, rfl⟩ := Option.isSome_iff_exists.mp answer
    rw [List.drop_of_length_le performed] at left
    exact (remaining_done_iff.mp left).1

end Sys2Proof.Proofs.Loop
end

section
/-! Whole stream commands over a finite input (R97, R99, R102, R123, R138). What the loop does on such an input
is computed once; the engine performs the loop, and the other statements speak of the outputs alone. -/

namespace Sys2Proof.Proofs.Streams

open Sys2Proof.Machine Sys2Proof.Proofs.Response Sys2Proof.Proofs.StreamOps Sys2Proof.Proofs.PermLaws
  Sys2Proof.Proofs.Loop

/-! ## The loop on a finite input -/

section Loop
variable (mode : BitVec 1) (key : Byte)

/-- All bytes accepted and the flush too: the loop alternates to the end and counts every byte (R99). -/
theorem streamCommand_succeeds (n : Count) (input : List Byte) (rs : List SrcAnswer) (ws : List SnkAnswer) :
    streamCommand mode key n (input.map SrcAnswer.byte ++ [.eos] ++ rs)
        (List.replicate (input.length + 1) SnkAnswer.ok ++ ws) =
      (streamTrace mode key input, some (mkRsp 0x00 .ok (n + BitVec.ofNat 48 input.length))) := by
  induction input generalizing n with
  | nil => simp [streamTrace]
  | cons b bs ih =>
    have rest := ih (n + 1)
    rw [List.map_cons, List.length_cons, List.replicate_succ, List.cons_append, List.cons_append,
      List.cons_append, streamCommand_byte_ok, rest, streamTrace, BitVec.add_assoc, BitVec.add_comm 1,
      BitVec.ofNat_add]
    rfl

theorem length_streamTrace (input : List Byte) :
    (streamTrace mode key input).length = 2 * input.length + 2 := by
  induction input with
  | nil => rfl
  | cons b bs ih =>
    rw [streamTrace, List.length_cons, List.length_cons, ih, List.length_cons]
    omega

@[simp] theorem accepted_streamTrace (input : List Byte) :
    accepted (streamTrace mode key input) = input.map (fun b => xform mode b key) := by
  induction input with
  | nil => rfl
  | cons b bs ih => simp [streamTrace, accepted, ih]

end Loop

/-! ## A command that is ready for its input -/

/-- The end of a successful stream command: what HOST, SRC and SNK have observed since its first read. -/
structure Succeeded (mode : BitVec 1) (key : Byte) (input : List Byte) (s t : State) : Prop where
  run : steps s.edges.length s = .next t
  phase : t.st = .resp
  rspR : t.rspR = mkRsp 0x00 .ok (BitVec.ofNat 48 input.length)
  trace : t.trace = s.trace ++ streamTrace mode key input

section Ready
variable {mode : BitVec 1} {key : Byte} {input : List Byte} {s t : State}

theorem succeeded_of_ready (ready : ReadyFor mode key input s) : ∃ t, Succeeded mode key input s t := by
  obtain ⟨rs, source⟩ := ready.source
  obtain ⟨ws, sink⟩ := ready.sink
  have loop := streamCommand_succeeds mode key 0 input rs ws
  have enough : (streamTrace mode key input).length ≤ answering s.edges :=
    (length_streamTrace mode key input).trans_le ready.enough
  rw [source, sink, ← ready.mode_eq, ← ready.key_eq, ← ready.count_eq] at loop
  rw [← ready.mode_eq, ← ready.key_eq] at enough
  obtain ⟨t, run, phase, rspR, trace⟩ := engineRunsTheLoop s _ _ ready.phase ready.calm loop enough
  refine ⟨t, run, phase, ?_, ?_⟩
  · rw [rspR, ready.count_eq]
    simp
  · rw [trace, ready.mode_eq, ready.key_eq]

theorem Succeeded.output (h : Succeeded mode key input s t) :
    t.output = s.output ++ input.map (fun b => xform mode b key) := by
  rw [State.output, h.trace, accepted_append, accepted_streamTrace, ← State.output]

/-- What the command has written itself. -/
theorem Succeeded.written (h : Succeeded mode key input s t) :
    t.output.drop s.output.length = input.map (fun b => xform mode b key) := by
  rw [h.output, List.drop_left]

/-- A run has one end. -/
theorem Succeeded.of_run (ready : ReadyFor mode key input s) (run : steps s.edges.length s = .next t) :
    Succeeded mode key input s t := by
  obtain ⟨u, h⟩ := succeeded_of_ready ready
  obtain rfl : u = t := Host.Outcome.next.inj (h.run.symm.trans run)
  exact h

end Ready

/-- Settles O52: the engine performs the loop, and the loop on this input succeeds. -/
theorem streamSucceeds : Obligations.StreamSucceeds := by
  intro mode key input s ready
  obtain ⟨t, h⟩ := succeeded_of_ready ready
  exact ⟨t, h.run, h.phase, h.rspR, h.trace, h.output⟩

/-- Decrypting each encrypted byte gives the input back. -/
theorem map_decrypt_map_encrypt (key : Byte) (input : List Byte) :
    (input.map (fun b => xform 0 b key)).map (fun b => xform 1 b key) = input := by
  have inverse : (fun b => xform 1 b key) ∘ (fun b => xform 0 b key) = id := by
    funext b
    rw [Function.comp_apply, xform_encrypt, xform_decrypt, decryptByte_encryptByte, id]
  rw [List.map_map, inverse, List.map_id]

/-- Settles O53: the decryption's input is the encryption's output, of the same length. -/
theorem streamRoundTrip : Obligations.StreamRoundTrip := by
  intro key input s s' t encrypts run decrypts
  have encrypted := Succeeded.of_run encrypts run
  rw [encrypted.written] at decrypts
  obtain ⟨t', decrypted⟩ := succeeded_of_ready decrypts
  refine ⟨t', decrypted.run, ?_, ?_, ?_⟩
  · rw [decrypted.output, map_decrypt_map_encrypt]
  · rw [decrypted.rspR, rspStatus_mkRsp, Status.code]
  · rw [decrypted.rspR, encrypted.rspR, rspCount_mkRsp, rspCount_mkRsp, List.length_map]

/-! ## Sharding -/

/-- Each unit runs its own chunk, and the outputs are joined in stream order (R123). -/
theorem shards_succeed {mode : BitVec 1} {key : Byte} {chunks : List (List Byte)} {units : List State}
    (ready : List.Forall₂ (ReadyFor mode key) chunks units) :
    ∃ units', List.Forall₂ (fun u u' => steps u.edges.length u = .next u') units units' ∧
      (∀ u' ∈ units', u'.st = .resp ∧ rspStatus u'.rspR = 0b00) ∧
      (List.zipWith (fun u u' => u'.output.drop u.output.length) units units').flatten =
        chunks.flatten.map (fun b => xform mode b key) := by
  induction ready with
  | nil => exact ⟨[], .nil, by simp, rfl⟩
  | @cons chunk u chunks units first _ ih =>
    obtain ⟨u', h⟩ := succeeded_of_ready first
    obtain ⟨units', runs, done, outputs⟩ := ih
    refine ⟨u' :: units', .cons h.run runs, ?_, ?_⟩
    · rw [List.forall_mem_cons]
      exact ⟨⟨h.phase, by rw [h.rspR, rspStatus_mkRsp, Status.code]⟩, done⟩
    · rw [List.zipWith_cons_cons, List.flatten_cons, h.written, outputs, List.flatten_cons, List.map_append]

/-- Settles O54: both sides are the transforms of the whole stream. -/
theorem shardingAgrees : Obligations.ShardingAgrees := by
  intro mode key chunks units whole shards ready
  obtain ⟨units', runs, done, outputs⟩ := shards_succeed shards
  obtain ⟨whole', h⟩ := succeeded_of_ready ready
  exact ⟨units', whole', runs, h.run, done, outputs.trans h.written.symm⟩

end Sys2Proof.Proofs.Streams
end

section
/-! Registers that are written before they are read (R24, R139). Two states are alike where they differ only in
registers the phase will not read; an edge keeps them alike and shows HOST, SRC and SNK the same. -/

namespace Sys2Proof.Proofs.Leftovers

open Sys2Proof.Machine Sys2Proof.Proofs.Handshakes Sys2Proof.Proofs.Acceptance

/-- In each phase, other values in the registers that no command reads before it writes them. -/
inductive Alike (s : State) : State → Prop
  | idle (phase : s.st = .idle) (k : Byte) (m : BitVec 1) (c : Count) (o : Byte) (r : RspWord) :
      Alike s (s.withRegisters k m c o r)
  | read (phase : s.st = .read) (o : Byte) (r : RspWord) :
      Alike s (s.withRegisters s.keyR s.modeR s.count o r)
  | write (phase : s.st = .write) (r : RspWord) :
      Alike s (s.withRegisters s.keyR s.modeR s.count s.obuf r)
  | flush (phase : s.st = .flush) (k : Byte) (m : BitVec 1) (o : Byte) (r : RspWord) :
      Alike s (s.withRegisters k m s.count o r)
  | resp (phase : s.st = .resp) (k : Byte) (m : BitVec 1) (c : Count) (o : Byte) :
      Alike s (s.withRegisters k m c o s.rspR)

/-- The same refusal, or next states that are alike. -/
inductive AlikeOutcomes : Host.Outcome State Fault Refusal → Host.Outcome State Fault Refusal → Prop
  | next {s t : State} (h : Alike s t) : AlikeOutcomes (.next s) (.next t)
  | refused (q : Refusal) : AlikeOutcomes (.refused q) (.refused q)

/-- Alike outcomes are the same to the agents. -/
theorem AlikeOutcomes.same {o p : Host.Outcome State Fault Refusal} (h : AlikeOutcomes o p) :
    sameToAgents o p := by
  cases h with
  | next h => cases h <;> exact ⟨rfl, rfl⟩
  | refused q => exact rfl

section Alike
variable {s t : State} (h : Alike s t)
include h

theorem Alike.edge : t.edge = s.edge := by cases h <;> rfl

theorem Alike.waits (waits : Waits s) : Waits t := by
  cases h <;> exact ⟨waits.noReset, waits.noCommand, waits.noResponse, waits.noRead, waits.noSink⟩

theorem Alike.passEdge : Alike s.passEdge t.passEdge := by
  cases h with
  | idle phase => exact .idle (s := s.passEdge) phase ..
  | read phase => exact .read (s := s.passEdge) phase ..
  | write phase => exact .write (s := s.passEdge) phase ..
  | flush phase => exact .flush (s := s.passEdge) phase ..
  | resp phase => exact .resp (s := s.passEdge) phase ..

/-- After a reset nothing is left of the difference. -/
theorem Alike.unitReset : Alike (s.unitReset.record .reset) (t.unitReset.record .reset) := by
  cases h <;> exact .idle rfl 0x00 0 0 0x00 0x0000000000000000

end Alike

/-- A word does the same in every IDLE state: it is answered with one response, or starts one stream. -/
theorem acceptCommand_uniform (w : CmdWord) :
    (∃ r, ∀ s : State, s.st = .idle → acceptCommand w s = .next (s.respond r)) ∨
    (∃ m k, ∀ s : State, s.st = .idle →
      acceptCommand w s = s.unlessAliased (.next (s.startStream m k))) := by
  cases decoded : decode w with
  | error x => exact .inl ⟨_, fun s _ => by rw [acceptCommand, decoded]; rfl⟩
  | ok i =>
    have accept (s : State) := acceptCommand_of_legal decoded s
    cases i with
    | encb d k => exact .inl ⟨_, fun s idle => (accept s).trans (State.whenIdle_idle idle _)⟩
    | decb d k => exact .inl ⟨_, fun s idle => (accept s).trans (State.whenIdle_idle idle _)⟩
    | encs k => exact .inr ⟨0, k, fun s idle => (accept s).trans (State.whenIdle_idle idle _)⟩
    | decs k => exact .inr ⟨1, k, fun s idle => (accept s).trans (State.whenIdle_idle idle _)⟩

/-- An acceptance writes all that its command will read. -/
theorem alike_acceptCommand (w : CmdWord) {s : State} (idle : s.st = .idle) (k : Byte) (m : BitVec 1)
    (c : Count) (o : Byte) (r : RspWord) :
    AlikeOutcomes (acceptCommand w s) (acceptCommand w (s.withRegisters k m c o r)) := by
  rcases acceptCommand_uniform w with ⟨answer, completes⟩ | ⟨mode, key, starts⟩
  · rw [completes s idle, completes (s.withRegisters k m c o r) idle]
    exact .next (.resp rfl ..)
  · rw [starts s idle, starts (s.withRegisters k m c o r) idle]
    cases aliased : s.aliased with
    | true =>
      rw [State.unlessAliased_aliased aliased,
        State.unlessAliased_aliased (s := s.withRegisters k m c o r) aliased]
      exact .refused _
    | false =>
      rw [State.unlessAliased_apart aliased,
        State.unlessAliased_apart (s := s.withRegisters k m c o r) aliased]
      exact .next (.read rfl ..)

/-- One edge: whatever it is, it reads only registers that agree. -/
theorem alike_step {s t : State} (h : Alike s t) : AlikeOutcomes (step s) (step t) := by
  cases edgeCase s with
  | reset rst =>
    rw [step_reset_edge rst, step_reset_edge (h.edge ▸ rst)]
    exact .next h.passEdge.unitReset
  | waits waits =>
    rw [step_of_waits waits, step_of_waits (h.waits waits)]
    exact .next h.passEdge
  | @command w ws noReset phase valid cmds =>
    rw [step_command_edge phase noReset valid cmds]
    cases h with
    | idle _ k m c o r =>
      rw [step_command_edge (s := s.withRegisters k m c o r) phase noReset valid cmds]
      exact alike_acceptCommand w (s := s.passEdge.popCmd.record (.command w)) phase k m c o r
    | read other | write other | flush other | resp other => cases other.symm.trans phase
  | response noReset phase ready =>
    rw [step_response_edge phase noReset ready]
    cases h with
    | resp _ k m c o =>
      rw [step_response_edge (s := s.withRegisters k m c o s.rspR) phase noReset ready]
      exact .next (.idle rfl ..)
    | idle other | read other | write other | flush other => cases other.symm.trans phase
  | @read x xs noReset phase ack src =>
    rw [step_read_edge phase noReset ack src]
    cases h with
    | read _ o r =>
      rw [step_read_edge (s := s.withRegisters s.keyR s.modeR s.count o r) phase noReset ack src]
      cases x.answer with
      | byte b => exact .next (.write rfl ..)
      | eos => exact .next (.flush rfl ..)
      | fault => exact .next (.resp rfl ..)
    | idle other | write other | flush other | resp other => cases other.symm.trans phase
  | @write x xs noReset phase ack snk =>
    rw [step_write_edge phase noReset ack snk]
    cases h with
    | write _ r =>
      rw [step_write_edge (s := s.withRegisters s.keyR s.modeR s.count s.obuf r) phase noReset ack snk]
      cases x with
      | false => exact .next (.read rfl ..)
      | true => exact .next (.resp rfl ..)
    | idle other | read other | flush other | resp other => cases other.symm.trans phase
  | @flush x xs noReset phase ack snk =>
    rw [step_flush_edge phase noReset ack snk]
    cases h with
    | flush _ k m o r =>
      rw [step_flush_edge (s := s.withRegisters k m s.count o r) phase noReset ack snk]
      cases x with
      | false => exact .next (.resp rfl ..)
      | true => exact .next (.resp rfl ..)
    | idle other | read other | write other | resp other => cases other.symm.trans phase

theorem alike_steps (n : Nat) {s t : State} (h : Alike s t) : AlikeOutcomes (steps n s) (steps n t) := by
  induction n generalizing s t with
  | zero => exact .next h
  | succ n ih =>
    have first := alike_step h
    rw [steps, steps]
    generalize step s = o, step t = p at first
    cases first with
    | next h' => exact ih h'
    | refused q => exact .refused q

/-- Settles O55: in IDLE all five registers are leftovers, and the states stay alike. -/
theorem oldRegistersUnobservable : Obligations.OldRegistersUnobservable := fun n _ k m c o r idle =>
  (alike_steps n (.idle idle k m c o r)).same

end Sys2Proof.Proofs.Leftovers
end

section
/-! Several units (R45, R123): a step of the system replaces one unit of the list by its own next state, and
replacements at different positions commute. -/

namespace Sys2Proof.Proofs.Units

open Sys2Proof.Machine

/-- Settles O58: the units at reset are copies of one state. -/
theorem systemResetEachUnit : Obligations.SystemResetEachUnit := fun _ _ =>
  ⟨List.length_replicate, fun _ h => (List.getElem?_replicate_of_lt h)⟩

/-- All the ways a unit's step can answer a next system. -/
theorem stepUnit_eq_next_iff {k : Nat} {sys sys' : System} : sys.stepUnit k = .next sys' ↔
    (sys.units[k]? = none ∧ sys' = sys) ∨
    (∃ u u', sys.units[k]? = some u ∧ step u = .next u' ∧ sys' = { units := sys.units.set k u' }) := by
  unfold System.stepUnit
  cases unit : sys.units[k]? with
  | none => simp [eq_comm]
  | some u => cases own : step u <;> simp [own, @eq_comm _ sys']

/-- Settles O56: the list is written at the stepped unit's position alone. -/
theorem unitsShareNothing : Obligations.UnitsShareNothing := by
  intro sys sys' k h
  rcases stepUnit_eq_next_iff.mp h with ⟨none, rfl⟩ | ⟨u, u', unit, own, rfl⟩
  · exact ⟨rfl, fun _ _ => rfl, fun u unit => by cases none.symm.trans unit⟩
  · refine ⟨List.length_set, fun j other => List.getElem?_set_ne other.symm, fun v unit' => ?_⟩
    obtain rfl : u = v := Option.some.inj (unit.symm.trans unit')
    have inRange : k < sys.units.length := (List.getElem?_eq_some_iff.mp unit).1
    exact ⟨u', own, List.getElem?_set_self inRange⟩

/-- A run of two steps goes through the system in between. -/
theorem run_pair_iff {j k : Nat} {sys out : System} : sys.run [j, k] = .next out ↔
    ∃ mid, sys.stepUnit j = .next mid ∧ mid.stepUnit k = .next out := by
  simp only [System.run]
  cases first : sys.stepUnit j with
  | next mid => cases second : mid.stepUnit k <;> simp [second]
  | fault r => simp
  | refused r => simp

/-- A step of one unit finds another unit as it was, before or after that one's step. -/
theorem run_swap {j k : Nat} (apart : j ≠ k) {sys out : System} (h : sys.run [j, k] = .next out) :
    sys.run [k, j] = .next out := by
  obtain ⟨mid, first, second⟩ := run_pair_iff.mp h
  simp only [run_pair_iff, stepUnit_eq_next_iff] at first second ⊢
  rcases first with ⟨noJ, rfl⟩ | ⟨u, u', unitJ, ownJ, rfl⟩ <;>
    rcases second with ⟨noK, rfl⟩ | ⟨v, v', unitK, ownK, rfl⟩
  · exact ⟨_, .inl ⟨noK, rfl⟩, .inl ⟨noJ, rfl⟩⟩
  · refine ⟨_, .inr ⟨v, v', unitK, ownK, rfl⟩, .inl ⟨?_, rfl⟩⟩
    rwa [List.getElem?_set_ne apart.symm]
  · rw [List.getElem?_set_ne apart] at noK
    exact ⟨_, .inl ⟨noK, rfl⟩, .inr ⟨u, u', unitJ, ownJ, rfl⟩⟩
  · rw [List.getElem?_set_ne apart] at unitK
    refine ⟨_, .inr ⟨v, v', unitK, ownK, rfl⟩, .inr ⟨u, u', ?_, ownJ, ?_⟩⟩
    · rwa [List.getElem?_set_ne apart.symm]
    · rw [List.set_comm _ _ apart]

/-- Settles O57: either order swaps into the other. -/
theorem unitStepsCommute : Obligations.UnitStepsCommute := fun _ _ _ _ apart =>
  ⟨run_swap apart, run_swap apart.symm⟩

end Sys2Proof.Proofs.Units
end
